-- ==== Sys2Proof/Word.lean ====
section
/-!
DEFINITION. The data widths of the engine: a byte of 8 bits (00_scope.md section 5, G5) and the 16-bit
quantities, the checksum accumulator (R15) and a register address (R58).
-/

namespace Sys2Proof

/-- A logical byte: what the command protocol and the host see (R6). -/
abbrev Byte := BitVec 8

/-- A wire byte, or raw byte: what is handed to or taken from the channel (R6). -/
abbrev Wire := BitVec 8

/-- A 16-bit quantity: the checksum (R15, R77) or a register address (R58). -/
abbrev Word := BitVec 16

end Sys2Proof
end

