-- ==== Sys2Proof/Config.lean ====
section
/-!
DEFINITION. What an implementation fixes: the constants and the configuration record CFG of R5, the small types the
free values range over, and the free values themselves (opaque constants, nothing can evaluate them).
-/

namespace Sys2Proof

/-- The anti-collision counter's three legal values 0x04, 0x0C, 0x1C (R11). R80 and U17 ask for this type in place of
the byte, so that no other value can be given; `accByte` is the architected byte. -/
inductive Acc where
  | four
  | twelve
  | twentyEight
  deriving DecidableEq, Repr

/-- PHASE: which channel primitive of the operation's pseudocode is next (R25). DESIGN CHOICE: R25 gives PHASE no finer
encoding, so a line that is no primitive runs with the primitive before it, and with the admission if there is none; the
choice of failure in a Send and the `RLEN <- 0` of the receive step run with the primitive after them (log 17). -/
inductive Phase where
  | lineReset   -- ChanLineReset of SYNC (R86)
  | flush       -- the ChanFlush that opens a Send (R34)
  | sending     -- the Send loop, at byte IDX of TXBUF (R34)
  | recvFirst   -- the Recv(1) of SYNC (R86) or of the receive step (R88)
  | recvRest    -- the Recv(m) of the receive step, at byte IDX (R88)
  deriving DecidableEq, Repr, Inhabited

/-- What the environment does just before one channel primitive, and what it chooses inside it (R36). -/
structure EnvMove where
  /-- wire bytes appended to the tail of RXQ before the primitive -/
  arrive : List Wire
  /-- inside ChanRxByte on an empty RXQ: the byte that still arrives in time, or none for Timeout (R33) -/
  late   : Option Wire
  /-- inside Send with TX_CAN_FAIL: the transmission stops before this byte (R34) -/
  txFail : Bool
  deriving DecidableEq, Repr, Inhabited

/-- What the hidden registers hold once an operation has returned: unspecified (R13, R15, R25, U16). -/
structure Hidden where
  txbuf : List Byte
  csum  : Word
  phase : Phase
  idx   : Nat
  deriving DecidableEq, Repr, Inhabited

/-- The fields of the configuration record CFG that change behaviour (R5, R23). Static: set before power-on and
written by no operation. -/
structure Cfg where
  shortRaw        : Byte
  idleTrailer     : Bool
  argsCal         : List Byte
  argsConf        : List Byte
  argsSnap        : List Byte
  argsKeep        : List Byte
  accReinitOnSync : Bool
  rxCsumCheck     : Bool
  txCanFail       : Bool
  txbufMax        : Nat
  rbufMax         : Nat
  deriving DecidableEq, Repr

/-- What R85 requires of CFG: room for a short frame, for a generic frame and for each ACC frame. -/
abbrev Cfg.Wf (c : Cfg) : Prop :=
  2 ≤ c.rbufMax ∧ 8 ≤ c.txbufMax ∧
  c.argsCal.length + 4 ≤ c.txbufMax ∧ c.argsConf.length + 4 ≤ c.txbufMax ∧
  c.argsSnap.length + 4 ≤ c.txbufMax ∧ c.argsKeep.length + 4 ≤ c.txbufMax

/-! ### Constants the source fixes (R5, R51, R52, R62) -/

def Config.syncByte : Byte := 0xAA
def Config.opCalibrate : Byte := 0x55
def Config.opConfigure : Byte := 0x60
def Config.opSnapshot : Byte := 0x61
def Config.opKeepalive : Byte := 0x62
def Config.opGeneric : Byte := 0x01
def Config.opIdle : Byte := 0xB0
def Config.mark0Read : Byte := 0x04
def Config.mark0Write : Byte := 0x05
def Config.mark1 : Byte := 0x03
def Config.stFull : Byte := 0x81
def Config.stShort : Byte := 0x82
def Config.accSeq : List Byte := [0x04, 0x0C, 0x1C]

/-! ### Timing-only parameters (R5, R41, R144): no operation reads them -/

def Config.baud : Nat := 4800
def Config.stopBits : Nat := 2
/-- PRESUMED by the spec itself (G1, D4): from general knowledge. -/
def Config.dataBits : Nat := 8
/-- PRESUMED by the spec itself (G1, D4): from general knowledge. -/
def Config.startBits : Nat := 1
/-- PRESUMED by the spec itself (G1, D4): no parity bit. -/
def Config.parityBits : Nat := 0
/-- PRESUMED by the spec itself (G1, D4): least significant bit first on the line. -/
def Config.lineLsbFirst : Bool := true
/-- Bit times of one character on the line (R144). -/
def Config.charBitTimes : Nat :=
  Config.startBits + Config.dataBits + Config.parityBits + Config.stopBits
/-- RX_TIMEOUT in milliseconds: "~0.8s", no exact value (N14). Nothing reads it. -/
opaque Config.rxTimeoutMs : Nat

/-! ### Free values -/

/-- The environment's move where State's list `env` has run out (log 15). -/
opaque Config.freeEnv : Nat → EnvMove
/-- The hidden registers after an operation's return (log 11). -/
opaque Config.freeHidden : Nat → Hidden
/-- The wire bytes already in RXQ at power-on (R17, R28; log 13). -/
opaque Config.powerOnRxq : List Wire
/-- The OPEN argument bytes of the four ACC commands (R5, D11; log 14). -/
opaque Config.freeArgsCal : List Byte
opaque Config.freeArgsConf : List Byte
opaque Config.freeArgsSnap : List Byte
opaque Config.freeArgsKeep : List Byte

/-- CFG at power-on: the spec's defaults (R5), the OPEN argument lists free and cut to what R85 requires (log 14). -/
def Config.powerOnCfg : Cfg where
  shortRaw        := 0x41
  idleTrailer     := true
  argsCal         := Config.freeArgsCal.take 28
  argsConf        := Config.freeArgsConf.take 28
  argsSnap        := Config.freeArgsSnap.take 28
  argsKeep        := Config.freeArgsKeep.take 28
  accReinitOnSync := false
  rxCsumCheck     := false
  txCanFail       := true
  txbufMax        := 32
  rbufMax         := 260

end Sys2Proof
end

