-- ==== Sys2Proof/Syntax.lean ====
section
/-!
DEFINITION. The syntax: the ten kinds of operation (R67) and Instr, one constructor per row of spec/opcode_table.json.
-/

namespace Sys2Proof

/-- OP: which of the ten host operations of R67 (R12). -/
inductive OpKind where
  | sync
  | tx
  | rx
  | idle
  | read
  | write
  | calibrate
  | configure
  | snapshot
  | keepalive
  deriving DecidableEq, Repr

/-- One constructor per row of the opcode table. The operands are those of R67; `rsize` and `n` are numbers with no
upper bound here, because a request with a size out of range is a request all the same, which R85 answers. -/
inductive Instr where
  /-- SYNC (R86) -/
  | sync
  /-- READ ah, al, len, rsize (R97) -/
  | read (ah al len : Byte) (rsize : Nat)
  /-- WRITE ah, al, val, rsize (R98) -/
  | write (ah al val : Byte) (rsize : Nat)
  /-- CALIBRATE rsize (R99) -/
  | calibrate (rsize : Nat)
  /-- CONFIGURE rsize (R100) -/
  | configure (rsize : Nat)
  /-- SNAPSHOT rsize (R101) -/
  | snapshot (rsize : Nat)
  /-- KEEPALIVE rsize (R102) -/
  | keepalive (rsize : Nat)
  /-- IDLE (R89) -/
  | idle
  /-- an inbound frame of status 0x81; `rest` is every byte after the status byte (R55, R63) -/
  | respFull (rest : List Byte)
  /-- an inbound short frame: status 0x82 and the byte `strailer` (R56) -/
  | respShort (strailer : Byte)
  /-- an inbound frame of any other status (R63); `rest` is every byte after it -/
  | respInvalid (status : Byte) (rest : List Byte)
  /-- TX l (R87) -/
  | tx (l : List Byte)
  /-- RX n (R88) -/
  | rx (n : Nat)
  /-- REV8(b) (R75) -/
  | rev8 (b : Byte)
  /-- CSUM16(l) (R77) -/
  | csum16 (l : List Byte)
  /-- ACCNEXT(a) (R80) -/
  | accnext (a : Acc)
  /-- READREG addr, n (R68) -/
  | readreg (addr : Word) (n : Byte)
  /-- WRITEREG addr, v, rsize (R68) -/
  | writereg (addr : Word) (v : Byte) (rsize : Nat)
  /-- FLUSH (R68) -/
  | flush
  deriving DecidableEq, Repr

end Sys2Proof
end

