-- ==== Sys2Proof/WellFormed.lean ====
section
/-!
DEFINITION. Which instructions are well formed. The only check the spec gives a row beyond the types of its operands:
a RESP_INVALID frame has a status byte that is neither 0x81 nor 0x82 (R63). Operand ranges of the host operations are
no well-formedness: R85 gives a request out of range its own answer.
-/

namespace Sys2Proof

/-- R63: "anything else = invalid". -/
def Instr.wf : Instr → Bool
  | .respInvalid status _ => status != Config.stFull && status != Config.stShort
  | .sync | .read .. | .write .. | .calibrate _ | .configure _ | .snapshot _ | .keepalive _ | .idle
  | .respFull _ | .respShort _ | .tx _ | .rx _ | .rev8 _ | .csum16 _ | .accnext _
  | .readreg .. | .writereg .. | .flush => true

end Sys2Proof
end

