-- ==== Sys2Proof/Machine/Datapath.lean ====
section
/-!
DEFINITION. The pure functions of 40_datapath.md (REV8, CSUM16, TRAILER, FRAME, ACCNEXT), the byte of the ACC and the
split of a 16-bit address (R58).
-/

namespace Sys2Proof.Machine

/-- REV8 (R75): bit 0 of the operand becomes bit 7 of the result, and so on. -/
def rev8 (b : Byte) : Byte :=
  b.extractLsb' 0 1 ++ b.extractLsb' 1 1 ++ b.extractLsb' 2 1 ++ b.extractLsb' 3 1 ++
  b.extractLsb' 4 1 ++ b.extractLsb' 5 1 ++ b.extractLsb' 6 1 ++ b.extractLsb' 7 1

/-- One step of the checksum accumulator: the byte, zero-extended, added modulo 2^16 (R15, R77). -/
def csumAdd (c : Word) (b : Byte) : Word := c + b.setWidth 16

/-- CSUM16 (R77). -/
def csum16 (l : List Byte) : Word := l.foldl csumAdd 0

/-- Bits 15:8 of a 16-bit quantity (R39, R58, R79). -/
def hiByte (w : Word) : Byte := w.extractLsb' 8 8

/-- Bits 7:0 of a 16-bit quantity (R39, R58, R79). -/
def loByte (w : Word) : Byte := w.extractLsb' 0 8

/-- A 16-bit quantity as two bytes, high byte first (R39). -/
def bigEndian (w : Word) : List Byte := [hiByte w, loByte w]

/-- TRAILER (R79). -/
def trailer (l : List Byte) : List Byte := bigEndian (csum16 l)

/-- FRAME (R79). -/
def frame (l : List Byte) : List Byte := l ++ trailer l

/-- The architected byte of the ACC (R11): 0x04, 0x0C or 0x1C. -/
def accByte : Acc → Byte
  | .four => 0x04
  | .twelve => 0x0C
  | .twentyEight => 0x1C

/-- The ACC value a byte stands for; none outside the set (R80, U17). -/
def accOfByte (b : Byte) : Option Acc :=
  if b = 0x04 then some .four
  else if b = 0x0C then some .twelve
  else if b = 0x1C then some .twentyEight
  else none

/-- ACCNEXT (R80). -/
def accNext : Acc → Acc
  | .four => .twelve
  | .twelve => .twentyEight
  | .twentyEight => .four

end Sys2Proof.Machine
end

