-- ==== Sys2Proof/Decode.lean ====
section
/-!
DEFINITION. Request images, the decoder and the encoder, and the opcode table's frame rows.

The engine fetches no instructions and the spec gives a request no encoding (D1, R25). What it does encode is frames
(30_encoding.md). An image is therefore a list of frame bytes, the kind of thing the bytes are, and the host operand RSIZE,
which no frame carries (opcode_table.json: "host operand, not encoded"). Logs 1 to 4.
-/

namespace Sys2Proof

/-- What the bytes of an image are (log 1). -/
inductive Port where
  /-- an outbound frame that names its operation by its first bytes (R62) -/
  | command
  /-- the operand list of TX, as given (R87) -/
  | send
  /-- RX: RSIZE alone (R88); bytes beside it are an operand it does not use and are ignored (R12) -/
  | receive
  /-- an inbound frame on the line (R55, R56, R63) -/
  | line
  /-- the operand of REV8 (R75) -/
  | rev8
  /-- the operand list of CSUM16 (R77) -/
  | csum16
  /-- the operand byte of ACCNEXT (R80) -/
  | accnext
  deriving DecidableEq, Repr

/-- A request, or an arriving frame, as bytes (log 1). -/
structure Image where
  port  : Port
  bytes : List Byte
  /-- RSIZE; ignored by what does not use it (R12) -/
  rsize : Nat
  deriving DecidableEq, Repr

/-- Why the decoder rejects an image. -/
inductive DecodeError where
  /-- no byte where the port needs one -/
  | empty
  /-- a first byte that is none of the seven opcodes of R62 -/
  | unknownOpcode (b : Byte)
  /-- opcode 0x01 with marker bytes that are neither READ's nor WRITE's (R52) -/
  | badMarker (m0 m1 : Byte)
  /-- a second byte of an ACC frame outside 0x04, 0x0C, 0x1C (R53, R60) -/
  | badAcc (a : Byte)
  /-- argument bytes or trailer of an ACC frame other than CFG's and the checksum (R53, R57) -/
  | badArgs
  /-- a trailer that is not the checksum of the bytes before it (R57) -/
  | badTrailer
  /-- too few or too many bytes for the frame (R65) -/
  | badLength
  deriving DecidableEq, Repr

/-- Opcode 0x01 (R52): the bytes after it. The trailer may be left for the checksum generator (log 3). -/
def decodeGeneric (rest : List Byte) (rsize : Nat) : Except DecodeError Instr :=
  match rest with
  | m0 :: m1 :: ah :: al :: lv :: t =>
    if m1 = Config.mark1 ∧ (m0 = Config.mark0Read ∨ m0 = Config.mark0Write) then
      if t = [] ∨ t = Machine.trailer [Config.opGeneric, m0, m1, ah, al, lv] then
        if m0 = Config.mark0Read then .ok (.read ah al lv rsize) else .ok (.write ah al lv rsize)
      else .error .badTrailer
    else .error (.badMarker m0 m1)
  | _ => .error .badLength

/-- An ACC frame (R53): the bytes after the opcode. The ACC byte is no operand of the request, since the engine sends
the counter it holds, but it must be a legal one; arguments and trailer may be left to the engine (log 3). -/
def decodeAccFrame (op : Byte) (args rest : List Byte) (i : Instr) : Except DecodeError Instr :=
  match rest with
  | a :: t =>
    if Machine.accOfByte a = none then .error (.badAcc a)
    else if t = [] ∨ t = args ++ Machine.trailer (op :: a :: args) then .ok i
    else .error .badArgs
  | [] => .error .badLength

/-- The opcode map of R62 on an outbound frame. DESIGN CHOICE: an idle frame is the request IDLE with its trailer and bare,
whatever IDLE_TRAILER is; which of the two the engine then transmits is CFG's (R54, log 28). -/
def decodeCommand (c : Cfg) (bytes : List Byte) (rsize : Nat) : Except DecodeError Instr :=
  match bytes with
  | [] => .error .empty
  | op :: rest =>
    if op = Config.syncByte then (if rest = [] then .ok .sync else .error .badLength)
    else if op = Config.opGeneric then decodeGeneric rest rsize
    else if op = Config.opCalibrate then decodeAccFrame op c.argsCal rest (.calibrate rsize)
    else if op = Config.opConfigure then decodeAccFrame op c.argsConf rest (.configure rsize)
    else if op = Config.opSnapshot then decodeAccFrame op c.argsSnap rest (.snapshot rsize)
    else if op = Config.opKeepalive then decodeAccFrame op c.argsKeep rest (.keepalive rsize)
    else if op = Config.opIdle then
      (if rest = [] ∨ rest = Machine.trailer [op] then .ok .idle else .error .badTrailer)
    else .error (.unknownOpcode op)

/-- The classes of inbound frames (R63), a short frame being 2 bytes (R56). No byte at all, and a first byte 0x82 with any other
number of bytes than two, are no row of the table, so that they name no instruction here; a step lets them arrive all the same,
since the environment may append any bytes (R36; `runUndecoded`, log 27). -/
def decodeLine (bytes : List Byte) : Except DecodeError Instr :=
  match bytes with
  | [] => .error .empty
  | st :: rest =>
    if st = Config.stFull then .ok (.respFull rest)
    else if st = Config.stShort then
      match rest with
      | [t] => .ok (.respShort t)
      | _ => .error .badLength
    else .ok (.respInvalid st rest)

/-- The decoder: total, rejecting by name. -/
def decode (c : Cfg) (img : Image) : Except DecodeError Instr :=
  match img.port with
  | .command => decodeCommand c img.bytes img.rsize
  | .send => .ok (.tx img.bytes)
  | .receive => .ok (.rx img.rsize)
  | .line => decodeLine img.bytes
  | .rev8 =>
    match img.bytes with
    | [b] => .ok (.rev8 b)
    | _ => .error .badLength
  | .csum16 => .ok (.csum16 img.bytes)
  | .accnext =>
    match img.bytes with
    | [b] =>
      match Machine.accOfByte b with
      | some a => .ok (.accnext a)
      | none => .error (.badAcc b)
    | _ => .error .badLength

/-- A pseudo-operation's expansion (R68); every other instruction is its own. -/
def expand : Instr → Instr
  | .readreg addr n => .read (Machine.hiByte addr) (Machine.loByte addr) n (n.toNat + 5)
  | .writereg addr v rsize => .write (Machine.hiByte addr) (Machine.loByte addr) v rsize
  | .flush => .tx []
  | .sync => .sync
  | .read ah al len rsize => .read ah al len rsize
  | .write ah al val rsize => .write ah al val rsize
  | .calibrate rsize => .calibrate rsize
  | .configure rsize => .configure rsize
  | .snapshot rsize => .snapshot rsize
  | .keepalive rsize => .keepalive rsize
  | .idle => .idle
  | .respFull rest => .respFull rest
  | .respShort strailer => .respShort strailer
  | .respInvalid status rest => .respInvalid status rest
  | .tx l => .tx l
  | .rx n => .rx n
  | .rev8 b => .rev8 b
  | .csum16 l => .csum16 l
  | .accnext a => .accnext a

/-- The image of an instruction that is no pseudo-operation: the whole frame of 30_encoding.md where the row has one, with
ACC value `a` in the frames that carry the counter (R53). -/
def encodeCore (c : Cfg) (a : Acc) : Instr → Image
  | .sync => ⟨.command, [Config.syncByte], 0⟩
  | .read ah al len rsize =>
    ⟨.command, Machine.frame [Config.opGeneric, Config.mark0Read, Config.mark1, ah, al, len], rsize⟩
  | .write ah al val rsize =>
    ⟨.command, Machine.frame [Config.opGeneric, Config.mark0Write, Config.mark1, ah, al, val], rsize⟩
  | .calibrate rsize =>
    ⟨.command, Machine.frame (Config.opCalibrate :: Machine.accByte a :: c.argsCal), rsize⟩
  | .configure rsize =>
    ⟨.command, Machine.frame (Config.opConfigure :: Machine.accByte a :: c.argsConf), rsize⟩
  | .snapshot rsize =>
    ⟨.command, Machine.frame (Config.opSnapshot :: Machine.accByte a :: c.argsSnap), rsize⟩
  | .keepalive rsize =>
    ⟨.command, Machine.frame (Config.opKeepalive :: Machine.accByte a :: c.argsKeep), rsize⟩
  | .idle =>
    ⟨.command, if c.idleTrailer then Machine.frame [Config.opIdle] else [Config.opIdle], 0⟩
  | .respFull rest => ⟨.line, Config.stFull :: rest, 0⟩
  | .respShort t => ⟨.line, [Config.stShort, t], 0⟩
  | .respInvalid st rest => ⟨.line, st :: rest, 0⟩
  | .tx l => ⟨.send, l, 0⟩
  | .rx n => ⟨.receive, [], n⟩
  | .rev8 b => ⟨.rev8, [b], 0⟩
  | .csum16 l => ⟨.csum16, l, 0⟩
  | .accnext x => ⟨.accnext, [Machine.accByte x], 0⟩
  | .readreg .. | .writereg .. | .flush => ⟨.send, [], 0⟩

/-- The encoder: a pseudo-operation has the image of its expansion (R68). -/
def encode (c : Cfg) (a : Acc) (i : Instr) : Image := encodeCore c a (expand i)

/-! ### The opcode table's rows with a fixed prefix -/

/-- A row's fixed prefix: `(prefix & mask) = pattern` over the first `width` bits of the logical frame read as one
big-endian number (INDEX.md, conventions of opcode_table.json). -/
structure Row where
  width   : Nat
  mask    : Nat
  pattern : Nat
  deriving DecidableEq, Repr

/-- A list of bytes as one big-endian number, byte 0 most significant. -/
def bigEndianNat (l : List Byte) : Nat := l.foldl (fun n b => n * 256 + b.toNat) 0

/-- Does a frame begin as the row says? -/
def Row.fits (r : Row) (bytes : List Byte) : Bool :=
  decide (r.width / 8 ≤ bytes.length) &&
    (bigEndianNat (bytes.take (r.width / 8)) &&& r.mask) == r.pattern

/-- The row of an instruction, for the rows that have a fixed prefix. IDLE's row is the form with its trailer, the one
byte 0xB0 where IDLE_TRAILER is false. -/
def rowOf (c : Cfg) : Instr → Option Row
  | .sync => some ⟨8, 0xFF, 0xAA⟩
  | .read .. | .readreg .. => some ⟨24, 0xFFFFFF, 0x010403⟩
  | .write .. | .writereg .. => some ⟨24, 0xFFFFFF, 0x010503⟩
  | .calibrate _ => some ⟨16, 0xFFE7, 0x5504⟩
  | .configure _ => some ⟨16, 0xFFE7, 0x6004⟩
  | .snapshot _ => some ⟨16, 0xFFE7, 0x6104⟩
  | .keepalive _ => some ⟨16, 0xFFE7, 0x6204⟩
  | .idle => some (if c.idleTrailer then ⟨24, 0xFFFFFF, 0xB000B0⟩ else ⟨8, 0xFF, 0xB0⟩)
  | .respFull _ => some ⟨8, 0xFF, 0x81⟩
  | .respShort _ => some ⟨8, 0xFF, 0x82⟩
  | .respInvalid .. | .tx _ | .rx _ | .rev8 _ | .csum16 _ | .accnext _ | .flush => none

/-! ### Table words -/

/-- The low `n` bytes of a number, most significant first. -/
def bytesOfNat : Nat → Nat → List Byte
  | 0, _ => []
  | n + 1, w => bytesOfNat n (w / 256) ++ [BitVec.ofNat 8 w]

/-- Zero operand bytes up to the length the first byte calls for: the 6 bytes before the trailer of a generic frame
(R52), the 2 bytes of a short frame (R56). -/
def padFrame (bytes : List Byte) : List Byte :=
  match bytes with
  | [] => []
  | b :: _ =>
    let n := if b = Config.opGeneric then 6 else if b = Config.stShort then 2 else 1
    bytes ++ List.replicate (n - bytes.length) 0

/-- The image a table word stands for. The table reads a frame's prefix as ONE big-endian number, byte 0 most significant,
bit 0 its least significant bit (INDEX.md, 98_reader.md): log 2. A first byte that is one of the seven opcodes of R62 is an
outbound frame, any other an inbound one (R63). -/
def imageOfTableWord (nbits w : Nat) : Image :=
  let bytes := padFrame (bytesOfNat (nbits / 8) w)
  match bytes with
  | [] => ⟨.command, [], 0⟩
  | b :: _ =>
    if b = Config.syncByte ∨ b = Config.opGeneric ∨ b = Config.opCalibrate ∨ b = Config.opConfigure ∨
        b = Config.opSnapshot ∨ b = Config.opKeepalive ∨ b = Config.opIdle then
      ⟨.command, bytes, 0⟩
    else ⟨.line, bytes, 0⟩

/-- What the decoder reads from a table word. -/
def decodeTableWord (nbits w : Nat) : Option Instr :=
  (decode Config.powerOnCfg (imageOfTableWord nbits w)).toOption

end Sys2Proof
end

