-- ==== Sys2Proof/Machine/State.lean ====
section
/-!
DEFINITION. The state S of R10 and the model's own fields beside it, the results of R21, the stops, and power-on (R28, R130).
-/

namespace Sys2Proof.Machine

/-- SYNC_STATE (R20). -/
inductive SyncState where
  | unsynced
  | synced
  deriving DecidableEq, Repr

/-- The causes of FAIL_TRANSPORT (R21, R111). -/
inductive TransportCause where
  | rxEmpty
  | rxShort
  | txFail
  deriving DecidableEq, Repr

/-- The causes of FAIL_PROTOCOL (R21, R112). -/
inductive ProtocolCause where
  | shortFrame
  | badStatus
  | badEcho
  | badSum
  deriving DecidableEq, Repr

/-- The reasons of REFUSED (R21, R113). -/
inductive RefuseReason where
  | busy
  | unsynced
  | badOperand
  deriving DecidableEq, Repr

/-- Result (R21). A failed or refused operation is a result and a next state, never a stop of the model (R110, log 9). -/
inductive Result where
  | ok
  | failTransport (cause : TransportCause)
  | failProtocol (cause : ProtocolCause)
  | refused (reason : RefuseReason)
  deriving DecidableEq, Repr

/-- One event on the line (R18). -/
inductive LineEvent where
  | byte (w : Wire)
  | lineReset
  deriving DecidableEq, Repr

/-- What the requester of the last request was handed: the MODEL's own (logs 6, 7). -/
inductive Reply where
  | none
  /-- an operation's result, or REFUSED(BUSY), which RESULT does not show (R85) -/
  | result (r : Result)
  /-- the value of REV8 -/
  | byte (b : Byte)
  /-- the value of CSUM16 -/
  | word (w : Word)
  /-- the value of ACCNEXT -/
  | acc (a : Acc)
  deriving DecidableEq, Repr

/-- One entry of the host's queue: the MODEL's own (logs 1, 17). -/
inductive Input where
  /-- a request the host blocks on: the operation runs to its return in this step (R22) -/
  | call (img : Image)
  /-- the same request handed to the sequencer: admitted, or refused, in this step and then run by ticks (R25) -/
  | start (img : Image)
  /-- the sequencer advances by one channel primitive (R25) -/
  | tick
  deriving DecidableEq, Repr

/-- The state S (R10), then the model's own fields. Plain data. -/
structure State where
  /-- ACC (R11) -/
  acc       : Acc
  /-- SYNC_STATE (R20) -/
  syncState : SyncState
  /-- OP (R12) -/
  op        : OpKind
  /-- AH (R12) -/
  ah        : Byte
  /-- AL (R12) -/
  al        : Byte
  /-- LV (R12) -/
  lv        : Byte
  /-- RSIZE (R12) -/
  rsize     : Nat
  /-- TXBUF[0..TXLEN-1] (R13) -/
  txbuf     : List Byte
  /-- RBUF[0..RLEN-1] (R14) -/
  rbuf      : List Byte
  /-- CSUM (R15) -/
  csum      : Word
  /-- BRK (R16) -/
  brk       : Bool
  /-- CTL (R16) -/
  ctl       : Bool
  /-- RXQ, head first (R17) -/
  rxq       : List Wire
  /-- TX, oldest first (R18) -/
  tx        : List LineEvent
  /-- RESULT (R21) -/
  result    : Result
  /-- BUSY (R25) -/
  busy      : Bool
  /-- PHASE (R25) -/
  phase     : Phase
  /-- IDX (R25) -/
  idx       : Nat
  /-- CFG (R23) -/
  cfg       : Cfg
  /-- the model's own: what the requester was handed last -/
  reply     : Reply
  /-- the model's own: the host's coming inputs, oldest first -/
  inputs    : List Input
  /-- the model's own: the environment's coming moves, one per channel primitive (R36) -/
  env       : List EnvMove
  /-- the model's own: the counter the free values are applied to -/
  freeClock : Nat
  deriving DecidableEq, Repr

/-- TXLEN (R13; log 10). -/
abbrev State.txlen (s : State) : Nat := s.txbuf.length

/-- RLEN (R14; log 10). -/
abbrev State.rlen (s : State) : Nat := s.rbuf.length

/-- The model's stops. The hardware has none (R110: no trap; R125: no result is fatal). -/
inductive Fault where
  /-- Raised by `tick` alone: BUSY is 1 and PHASE and IDX are no position of OP's pseudocode (R25). No run from power-on
  reaches it. Safe: the model stops where the spec gives no meaning (log 24). -/
  | lostPhase
  deriving DecidableEq, Repr

/-- Requests without a meaning. -/
inductive Refusal where
  /-- Raised by `exec` for an instruction that has no meaning yet: by none. Safe. -/
  | notModelled (mnemonic : String)
  /-- Raised by `step` alone, for a call of REV8 on other than one byte or of ACCNEXT on other than one legal byte: the spec gives
  these no value ("operand one byte", R75; "an out-of-set argument has no meaning and must not be given one", R80, U17). Safe
  (log 24). -/
  | undecodable (e : DecodeError)
  deriving DecidableEq, Repr

/-- Power-on (R28, R130). OP, AH, AL, LV, RSIZE, TXBUF, CSUM, PHASE and IDX are unspecified there: the values below are a
DESIGN CHOICE (log 12). RXQ is the environment's (log 13). -/
def State.reset : State where
  acc       := .four
  syncState := .unsynced
  op        := .sync
  ah        := 0
  al        := 0
  lv        := 0
  rsize     := 0
  txbuf     := []
  rbuf      := []
  csum      := 0
  brk       := false
  ctl       := false
  rxq       := Config.powerOnRxq
  tx        := []
  result    := .ok
  busy      := false
  phase     := .lineReset
  idx       := 0
  cfg       := Config.powerOnCfg
  reply     := .none
  inputs    := []
  env       := []
  freeClock := 0

end Sys2Proof.Machine
end

