-- ==== Sys2Proof/Machine/Ops.lean ====
section
/-!
DEFINITION. The named operations over the channel and the registers: the environment's move, the channel primitives
(20_memory.md section 2), the frame builder (R13, R15), Send, Recv, and how an operation ends. Returning a failure is this
block's form of taking an exception (R110): `retire` and `refuse` are the one place where it is done.
-/

namespace Sys2Proof.Machine

/-! ### The environment (R36) -/

/-- The environment's move at the next channel primitive: the next one of State's list, and past its end a free value
(log 15). -/
def envMove (s : State) : EnvMove :=
  match s.env with
  | m :: _ => m
  | [] => Config.freeEnv s.freeClock

/-- The environment acts just before a primitive: it appends to RXQ and can do nothing else (R36). -/
def envAct (s : State) : State :=
  { s with
    rxq := s.rxq ++ (envMove s).arrive
    env := s.env.tail
    freeClock := if s.env = [] then s.freeClock + 1 else s.freeClock }

/-! ### Channel primitives -/

/-- RXQ (R17). -/
def setRxq (q : List Wire) (s : State) : State := { s with rxq := q }

/-- ChanFlush (R31). -/
def chanFlush (s : State) : State := setRxq [] (envAct s)

/-- ChanTxByte (R32): the byte as given. The environment's move before it is taken by `sendBytes`, which asks it first
whether the transmission fails. -/
def chanTxByte (w : Wire) (s : State) : State := { s with tx := s.tx ++ [.byte w] }

/-- ChanRxByte (R33): none is Timeout. -/
def chanRxByte (s : State) : Option Wire × State :=
  match (envAct s).rxq with
  | w :: q => (some w, setRxq q (envAct s))
  | [] => ((envMove s).late, envAct s)

/-- BRK and CTL (R16). -/
def setLines (v : Bool) (s : State) : State := { s with brk := v, ctl := v }

/-- The line event LineReset (R18). -/
def emitLineReset (s : State) : State := { s with tx := s.tx ++ [.lineReset] }

/-- ChanLineReset (R38): assert, the event, release. -/
def chanLineReset (s : State) : State := setLines false (emitLineReset (setLines true (envAct s)))

/-! ### Registers -/

/-- RBUF[0..RLEN-1] and RLEN (R14). -/
def setRbuf (l : List Byte) (s : State) : State := { s with rbuf := l }

/-- SYNC_STATE (R20). -/
def setSync (v : SyncState) (s : State) : State := { s with syncState := v }

/-- ACC (R11). -/
def setAcc (a : Acc) (s : State) : State := { s with acc := a }

/-- PHASE and IDX (R25). -/
def setSeq (p : Phase) (i : Nat) (s : State) : State := { s with phase := p, idx := i }

/-- What the requester is handed (logs 6, 7). -/
def answer (r : Reply) (s : State) : State := { s with reply := r }

/-! ### The frame builder and the checksum generator (R13, R15) -/

/-- TXBUF and CSUM (R13, R15). -/
def setFrame (l : List Byte) (c : Word) (s : State) : State := { s with txbuf := l, csum := c }

/-- A byte is placed in TXBUF and added to CSUM (R15). -/
def placeByte (s : State) (b : Byte) : State := setFrame (s.txbuf ++ [b]) (csumAdd s.csum b) s

/-- A frame build: CSUM cleared, then every byte placed (R15). -/
def placeBytes (l : List Byte) (s : State) : State := l.foldl placeByte (setFrame [] 0 s)

/-- The checksum generator appends CSUM, high byte first (R15, R79). -/
def appendTrailer (s : State) : State := setFrame (s.txbuf ++ bigEndian s.csum) s.csum s

/-- A checksummed frame of the given body in TXBUF (R57). -/
def buildFrame (body : List Byte) (s : State) : State := appendTrailer (placeBytes body s)

/-! ### Send and Recv -/

/-- How a Send ended (R34): true is TxOk, false is TxFail. -/
abbrev Sent := Bool

/-- The byte loop of Send (R34). -/
def sendBytes : List Byte → State → Sent × State
  | [], s => (true, s)
  | b :: l, s =>
    if s.cfg.txCanFail && (envMove s).txFail then (false, envAct s)
    else sendBytes l (chanTxByte (rev8 b) (envAct s))

/-- Send (R34). -/
def send (l : List Byte) (s : State) : Sent × State := sendBytes l (chanFlush s)

/-- Send drains TXBUF (R13). -/
def sendTxbuf (s : State) : Sent × State := send s.txbuf s

/-- Recv (R35): the wire bytes as received. -/
def recv : Nat → State → List Wire × State
  | 0, s => ([], s)
  | n + 1, s =>
    match chanRxByte s with
    | (none, t) => ([], t)
    | (some w, t) =>
      let p := recv n t
      (w :: p.1, p.2)

/-! ### How an operation ends -/

/-- `return R` (R21, R85 step 4): RESULT is written, BUSY cleared, the result handed to the requester. What the hidden
registers hold from here on is unspecified (R13, R15, R25): free values (log 11). -/
def retire (r : Result) (s : State) : State :=
  { s with
    result := r
    reply := .result r
    busy := false
    txbuf := (Config.freeHidden s.freeClock).txbuf.take s.cfg.txbufMax
    csum := (Config.freeHidden s.freeClock).csum
    phase := (Config.freeHidden s.freeClock).phase
    idx := (Config.freeHidden s.freeClock).idx
    freeClock := s.freeClock + 1 }

/-- A request is refused (R85): REFUSED(BUSY) goes to the requester and leaves S unchanged; any other refusal changes
RESULT and nothing else of S. -/
def refuse (reason : RefuseReason) (s : State) : State :=
  match reason with
  | .busy => answer (.result (.refused .busy)) s
  | .badOperand => { s with result := .refused .badOperand, reply := .result (.refused .badOperand) }
  | .unsynced => { s with result := .refused .unsynced, reply := .result (.refused .unsynced) }

/-- Wire bytes of a device's frame reach the engine between two operations: they are queued silently (R17, R36, R115);
every byte crosses bit-reversed (R40). -/
def arrive (l : List Byte) (s : State) : State := { s with rxq := s.rxq ++ l.map rev8 }

end Sys2Proof.Machine
end

