-- ==== Sys2Proof/Machine/Functions.lean ====
section
/-!
DEFINITION. The function rows REV8, CSUM16, ACCNEXT: the value goes to the requester and S is untouched (R29, 40_datapath.md:
"None of them reads or writes S, none can fail"). They are no operations, so the admission of R85 does not concern them. Log 6.
-/

namespace Sys2Proof.Machine

/-- REV8(b) (R75). -/
def execRev8 (b : Byte) (s : State) : Host.Outcome State Fault Refusal := .next (answer (.byte (rev8 b)) s)

/-- CSUM16(l) (R77). -/
def execCsum16 (l : List Byte) (s : State) : Host.Outcome State Fault Refusal :=
  .next (answer (.word (csum16 l)) s)

/-- ACCNEXT(a) (R80). -/
def execAccnext (a : Acc) (s : State) : Host.Outcome State Fault Refusal := .next (answer (.acc (accNext a)) s)

end Sys2Proof.Machine
end

