-- ==== Sys2Proof/Machine/Inbound.lean ====
section
/-!
DEFINITION. The inbound rows RESP_FULL, RESP_SHORT, RESP_INVALID: a frame of the device reaches the engine between two
operations. Its bytes are queued in RXQ silently (R17, R36, R115) and parsed by the next RX or command (R65, R88, R96). Log 5.
-/

namespace Sys2Proof.Machine

/-- RESP_FULL (R55). -/
def execRespFull (rest : List Byte) (s : State) : Host.Outcome State Fault Refusal :=
  .next (arrive (Config.stFull :: rest) s)

/-- RESP_SHORT (R56). -/
def execRespShort (strailer : Byte) (s : State) : Host.Outcome State Fault Refusal :=
  .next (arrive [Config.stShort, strailer] s)

/-- RESP_INVALID (R63). -/
def execRespInvalid (status : Byte) (rest : List Byte) (s : State) : Host.Outcome State Fault Refusal :=
  .next (arrive (status :: rest) s)

end Sys2Proof.Machine
end

