-- ==== Sys2Proof/Machine/Flags.lean ====
section
/-!
DEFINITION. What is computed from the response buffer: STATUS_CLASS (R19), the optional checksum check (R104), Judge (R96),
the fields of a response (R103), and the numeric code of a result (R110).
-/

namespace Sys2Proof.Machine

/-- STATUS_CLASS's values (R19). -/
inductive StatusClass where
  | none
  | valid
  | short
  | invalid
  deriving DecidableEq, Repr

/-- STATUS_CLASS of the bytes RBUF[0..RLEN-1] (R19). -/
def statusClass (rbuf : List Byte) : StatusClass :=
  match rbuf with
  | [] => .none
  | b :: _ => if b = Config.stFull then .valid else if b = Config.stShort then .short else .invalid

/-- RxSumOk (R104) of the bytes RBUF[0..RLEN-1]. -/
def rxSumOk (rbuf : List Byte) : Bool :=
  if rbuf.length < 2 then false
  else decide (trailer (rbuf.take (rbuf.length - 2)) = rbuf.drop (rbuf.length - 2))

/-- Judge (R96). STATUS_CLASS NONE is shut out by its precondition RLEN >= 1; like every status that is neither 0x81 nor
0x82 it is answered BAD_STATUS. -/
def judge (s : State) : Result :=
  match statusClass s.rbuf with
  | .valid => if s.cfg.rxCsumCheck && !rxSumOk s.rbuf then .failProtocol .badSum else .ok
  | .short => .failProtocol .shortFrame
  | .invalid => .failProtocol .badStatus
  | .none => .failProtocol .badStatus

/-- The numeric code of a result (R110). -/
def resultCode : Result → Nat
  | .ok => 0
  | .failTransport .rxEmpty => 1
  | .failTransport .rxShort => 2
  | .failTransport .txFail => 3
  | .failProtocol .shortFrame => 4
  | .failProtocol .badStatus => 5
  | .failProtocol .badEcho => 6
  | .failProtocol .badSum => 7
  | .refused .busy => 8
  | .refused .badOperand => 9
  | .refused .unsynced => 10

/-! ### The fields of a full response, as the host slices it (R55, R103) -/

/-- The echoed address RBUF[1], RBUF[2] (R103). -/
def respEcho (rbuf : List Byte) : List Byte := (rbuf.drop 1).take 2

/-- The payload RBUF[3 : RLEN-2] (R103). -/
def respPayload (rbuf : List Byte) : List Byte := (rbuf.take (rbuf.length - 2)).drop 3

/-- The received trailer RBUF[RLEN-2], RBUF[RLEN-1] (R103). -/
def respTrailer (rbuf : List Byte) : List Byte := rbuf.drop (rbuf.length - 2)

end Sys2Proof.Machine
end

