-- ==== Sys2Proof/Machine/Operands.lean ====
section
/-!
DEFINITION. Requests and their operands: the request value of D1, the admission checks of R85, the loading of the operand
registers (R12), and the bodies of the outbound frames (30_encoding.md section 1).
-/

namespace Sys2Proof.Machine

/-- A host request: the operation and its operands (D1, R67). Operands the operation does not use stay at their default
and are ignored (R12). -/
structure Request where
  op    : OpKind
  ah    : Byte := 0
  al    : Byte := 0
  lv    : Byte := 0
  rsize : Nat := 0
  /-- the byte list of TX -/
  bytes : List Byte := []
  deriving DecidableEq, Repr

/-- R85 step 2: is an operand outside its range? -/
def badOperand (c : Cfg) (r : Request) : Bool :=
  match r.op with
  | .tx => !decide (r.bytes.length ≤ c.txbufMax)
  | .rx | .read => !decide (1 ≤ r.rsize ∧ r.rsize ≤ c.rbufMax)
  | .write | .calibrate | .configure | .snapshot | .keepalive => !decide (r.rsize ≤ c.rbufMax)
  | .sync | .idle => false

/-- R85 step 3: the six operations gated by SYNC_STATE. -/
def gated : OpKind → Bool
  | .read | .write | .calibrate | .configure | .snapshot | .keepalive => true
  | .sync | .tx | .rx | .idle => false

/-- Admit (R85): the first failing check, in the rule's order; none where the request is admitted. -/
def admission (r : Request) (s : State) : Option RefuseReason :=
  if s.busy then some .busy
  else if badOperand s.cfg r then some .badOperand
  else if gated r.op && s.syncState == .unsynced then some .unsynced
  else none

/-- The operand registers an operation uses are loaded from its request, and TXBUF for TX (R12, R13); they are loaded when
the request is admitted (log 8). -/
def load (r : Request) (s : State) : State :=
  match r.op with
  | .sync | .idle => { s with op := r.op }
  | .tx => { s with op := r.op, txbuf := r.bytes }
  | .rx | .calibrate | .configure | .snapshot | .keepalive => { s with op := r.op, rsize := r.rsize }
  | .read | .write => { s with op := r.op, ah := r.ah, al := r.al, lv := r.lv, rsize := r.rsize }

/-- R85 step 4: the operands are loaded and BUSY is set. -/
def accept (r : Request) (s : State) : State := { load r s with busy := true }

/-- A blocking request (R22, R85): refused with the reason of the first failing check, or run to its return. -/
def perform (r : Request) (run : State → Result × State) (s : State) : State :=
  match admission r s with
  | some reason => refuse reason s
  | none => retire (run (accept r s)).1 (run (accept r s)).2

/-! ### Frame bodies: every byte before the trailer (R57) -/

/-- Format S (R51): the bare sync byte. -/
def syncBody : List Byte := [Config.syncByte]

/-- Format I (R54). -/
def idleBody : List Byte := [Config.opIdle]

/-- Format G of READ (R52). -/
def readBody (s : State) : List Byte :=
  [Config.opGeneric, Config.mark0Read, Config.mark1, s.ah, s.al, s.lv]

/-- Format G of WRITE (R52). -/
def writeBody (s : State) : List Byte :=
  [Config.opGeneric, Config.mark0Write, Config.mark1, s.ah, s.al, s.lv]

/-- Format A (R53): the opcode, the current ACC as a whole byte (R60), the argument bytes of CFG (R61). -/
def accBody (op : Byte) (args : List Byte) (s : State) : List Byte := op :: accByte s.acc :: args

/-- Format A of CALIBRATE. -/
def calibrateBody (s : State) : List Byte := accBody Config.opCalibrate s.cfg.argsCal s
/-- Format A of CONFIGURE. -/
def configureBody (s : State) : List Byte := accBody Config.opConfigure s.cfg.argsConf s
/-- Format A of SNAPSHOT. -/
def snapshotBody (s : State) : List Byte := accBody Config.opSnapshot s.cfg.argsSnap s
/-- Format A of KEEPALIVE. -/
def keepaliveBody (s : State) : List Byte := accBody Config.opKeepalive s.cfg.argsKeep s

/-- The idle frame in TXBUF: with its trailer or bare (R54, R89). -/
def buildIdle (s : State) : State :=
  if s.cfg.idleTrailer then buildFrame idleBody s else placeBytes idleBody s

end Sys2Proof.Machine
end

