-- ==== Sys2Proof/Machine/Transport.lean ====
section
/-!
DEFINITION. The transport operations of 41_transport_ops.md: SYNC, TX, RX, IDLE.
-/

namespace Sys2Proof.Machine

/-- How many more bytes the receive step reads after the first wire byte (R65, R88). -/
def restLen (c : Cfg) (n : Nat) (w : Wire) : Nat := if w = c.shortRaw then 1 else n - 1

/-- The lines of RX after its first byte (R88). -/
def rxRest (w : Wire) (m : Nat) (s : State) : Result × State :=
  let p := recv m (setRbuf [rev8 w] s)
  let u := setRbuf (rev8 w :: p.1.map rev8) p.2
  if p.1.length < m then (.failTransport .rxShort, u) else (.ok, u)

/-- The pseudocode of RX, which is also the receive step of the commands (R88, R95). -/
def rxBody (n : Nat) (s : State) : Result × State :=
  match chanRxByte (setRbuf [] s) with
  | (none, t) => (.failTransport .rxEmpty, t)
  | (some w, t) => rxRest w (restLen t.cfg n w) t

/-- SYNC's lines before its Send, ChanLineReset among them (R86). That the sequencer runs them all in one tick is the model's
choice, log 17. -/
def syncPrologue (s : State) : State :=
  let t := chanLineReset s
  let t := if t.cfg.accReinitOnSync then setAcc .four t else t
  placeBytes syncBody (setRbuf [] t)

/-- SYNC's last lines: the echo is compared (R86). -/
def syncEcho (w : Wire) (s : State) : Result × State :=
  if rev8 w = Config.syncByte then (.ok, setSync .synced (setRbuf [rev8 w] s))
  else (.failProtocol .badEcho, setSync .unsynced (setRbuf [rev8 w] s))

/-- SYNC (R86). -/
def runSync (s : State) : Result × State :=
  match sendTxbuf (syncPrologue s) with
  | (false, t) => (.failTransport .txFail, setSync .unsynced t)
  | (true, t) =>
    match chanRxByte t with
    | (none, u) => (.failTransport .rxEmpty, setSync .unsynced u)
    | (some w, u) => syncEcho w u

/-- TX (R87): TXBUF was loaded by the host. -/
def runTx (s : State) : Result × State :=
  match sendTxbuf s with
  | (false, t) => (.failTransport .txFail, t)
  | (true, t) => (.ok, t)

/-- RX (R88). -/
def runRx (s : State) : Result × State := rxBody s.rsize s

/-- IDLE (R89). -/
def runIdle (s : State) : Result × State :=
  match sendTxbuf (buildIdle s) with
  | (false, t) => (.failTransport .txFail, setSync .unsynced t)
  | (true, t) => (.ok, setSync .unsynced t)

/-- SYNC. -/
def execSync (s : State) : Host.Outcome State Fault Refusal :=
  .next (perform { op := .sync } runSync s)

/-- TX l. -/
def execTx (l : List Byte) (s : State) : Host.Outcome State Fault Refusal :=
  .next (perform { op := .tx, bytes := l } runTx s)

/-- RX n. -/
def execRx (n : Nat) (s : State) : Host.Outcome State Fault Refusal :=
  .next (perform { op := .rx, rsize := n } runRx s)

/-- IDLE. -/
def execIdle (s : State) : Host.Outcome State Fault Refusal :=
  .next (perform { op := .idle } runIdle s)

end Sys2Proof.Machine
end

