-- ==== Sys2Proof/Machine/Command.lean ====
section
/-!
DEFINITION. The command operations of 42_command_ops.md: READ, WRITE, CALIBRATE, CONFIGURE, SNAPSHOT, KEEPALIVE.
-/

namespace Sys2Proof.Machine

/-- The receive half of Xfer (R95): nothing for rsize 0, else one response, judged. -/
def xferReceive (rsize : Nat) (s : State) : Result × State :=
  if rsize = 0 then (.ok, s)
  else
    match rxBody rsize s with
    | (.ok, t) => (judge t, t)
    | (r, t) => (r, t)

/-- Xfer (R95): the frame in TXBUF out, at most one response in. -/
def xfer (rsize : Nat) (s : State) : Result × State :=
  match sendTxbuf s with
  | (false, t) => (.failTransport .txFail, t)
  | (true, t) => xferReceive rsize t

/-- The advance step of CALIBRATE and SNAPSHOT (R99, R101): whatever the result is. -/
def advanceAcc (a : Acc) (p : Result × State) : Result × State := (p.1, setAcc (accNext a) p.2)

/-- READ (R97). -/
def runRead (s : State) : Result × State := xfer s.rsize (buildFrame (readBody s) s)

/-- WRITE (R98). -/
def runWrite (s : State) : Result × State := xfer s.rsize (buildFrame (writeBody s) s)

/-- CALIBRATE (R99). -/
def runCalibrate (s : State) : Result × State :=
  advanceAcc s.acc (xfer s.rsize (buildFrame (calibrateBody s) s))

/-- CONFIGURE (R100). -/
def runConfigure (s : State) : Result × State := xfer s.rsize (buildFrame (configureBody s) s)

/-- SNAPSHOT (R101). -/
def runSnapshot (s : State) : Result × State :=
  advanceAcc s.acc (xfer s.rsize (buildFrame (snapshotBody s) s))

/-- KEEPALIVE (R102). -/
def runKeepalive (s : State) : Result × State := xfer s.rsize (buildFrame (keepaliveBody s) s)

/-- READ ah, al, len, rsize. -/
def execRead (ah al len : Byte) (rsize : Nat) (s : State) : Host.Outcome State Fault Refusal :=
  .next (perform { op := .read, ah := ah, al := al, lv := len, rsize := rsize } runRead s)

/-- WRITE ah, al, val, rsize. -/
def execWrite (ah al val : Byte) (rsize : Nat) (s : State) : Host.Outcome State Fault Refusal :=
  .next (perform { op := .write, ah := ah, al := al, lv := val, rsize := rsize } runWrite s)

/-- CALIBRATE rsize. -/
def execCalibrate (rsize : Nat) (s : State) : Host.Outcome State Fault Refusal :=
  .next (perform { op := .calibrate, rsize := rsize } runCalibrate s)

/-- CONFIGURE rsize. -/
def execConfigure (rsize : Nat) (s : State) : Host.Outcome State Fault Refusal :=
  .next (perform { op := .configure, rsize := rsize } runConfigure s)

/-- SNAPSHOT rsize. -/
def execSnapshot (rsize : Nat) (s : State) : Host.Outcome State Fault Refusal :=
  .next (perform { op := .snapshot, rsize := rsize } runSnapshot s)

/-- KEEPALIVE rsize. -/
def execKeepalive (rsize : Nat) (s : State) : Host.Outcome State Fault Refusal :=
  .next (perform { op := .keepalive, rsize := rsize } runKeepalive s)

end Sys2Proof.Machine
end

