-- ==== Sys2Proof/Machine/Pseudo.lean ====
section
/-!
DEFINITION. The pseudo-operations of R68, each the operation it expands to.
-/

namespace Sys2Proof.Machine

/-- READREG addr, n = READ addr[15:8], addr[7:0], n, n+5 (R68). -/
def execReadreg (addr : Word) (n : Byte) (s : State) : Host.Outcome State Fault Refusal :=
  execRead (hiByte addr) (loByte addr) n (n.toNat + 5) s

/-- WRITEREG addr, v, rsize = WRITE addr[15:8], addr[7:0], v, rsize (R68). -/
def execWritereg (addr : Word) (v : Byte) (rsize : Nat) (s : State) : Host.Outcome State Fault Refusal :=
  execWrite (hiByte addr) (loByte addr) v rsize s

/-- FLUSH = TX [] (R68). -/
def execFlush (s : State) : Host.Outcome State Fault Refusal := execTx [] s

end Sys2Proof.Machine
end

