-- ==== Sys2Proof/Machine/Dispatch.lean ====
section
/-!
DEFINITION. One arm per constructor of Instr.
-/

namespace Sys2Proof.Machine

def exec (i : Instr) (s : State) : Host.Outcome State Fault Refusal :=
  match i with
  | .sync => Sys2Proof.Machine.execSync s
  | .read ah al len rsize => Sys2Proof.Machine.execRead ah al len rsize s
  | .write ah al val rsize => Sys2Proof.Machine.execWrite ah al val rsize s
  | .calibrate rsize => Sys2Proof.Machine.execCalibrate rsize s
  | .configure rsize => Sys2Proof.Machine.execConfigure rsize s
  | .snapshot rsize => Sys2Proof.Machine.execSnapshot rsize s
  | .keepalive rsize => Sys2Proof.Machine.execKeepalive rsize s
  | .idle => Sys2Proof.Machine.execIdle s
  | .respFull rest => Sys2Proof.Machine.execRespFull rest s
  | .respShort strailer => Sys2Proof.Machine.execRespShort strailer s
  | .respInvalid status rest => Sys2Proof.Machine.execRespInvalid status rest s
  | .tx l => Sys2Proof.Machine.execTx l s
  | .rx n => Sys2Proof.Machine.execRx n s
  | .rev8 b => Sys2Proof.Machine.execRev8 b s
  | .csum16 l => Sys2Proof.Machine.execCsum16 l s
  | .accnext a => Sys2Proof.Machine.execAccnext a s
  | .readreg addr n => Sys2Proof.Machine.execReadreg addr n s
  | .writereg addr v rsize => Sys2Proof.Machine.execWritereg addr v rsize s
  | .flush => Sys2Proof.Machine.execFlush s

end Sys2Proof.Machine
end

