-- ==== Sys2Proof/Machine/Sequencer.lean ====
section
/-!
DEFINITION. The sequencer BUSY, PHASE, IDX (R22, R25): the same operations, advanced by one channel primitive per tick, so that
the environment and further requests are seen between two primitives. Log 17.
-/

namespace Sys2Proof.Machine

/-- The first channel primitive of an operation's pseudocode. -/
def firstPhase : OpKind → Phase
  | .sync => .lineReset
  | .rx => .recvFirst
  | .tx | .idle | .read | .write | .calibrate | .configure | .snapshot | .keepalive => .flush

/-- The lines before an operation's first primitive: the frame build (R89, R97 to R102). DESIGN CHOICE: they run with the
admission, before the first tick (log 17). -/
def prepare (s : State) : State :=
  match s.op with
  | .sync | .tx | .rx => s
  | .idle => buildIdle s
  | .read => buildFrame (readBody s) s
  | .write => buildFrame (writeBody s) s
  | .calibrate => buildFrame (calibrateBody s) s
  | .configure => buildFrame (configureBody s) s
  | .snapshot => buildFrame (snapshotBody s) s
  | .keepalive => buildFrame (keepaliveBody s) s

/-- An admitted operation stands before its first primitive. -/
def enter (s : State) : State := setSeq (firstPhase s.op) 0 (prepare s)

/-- A request handed to the sequencer: the admission of R85, and BUSY set. -/
def beginRequest (r : Request) (s : State) : State :=
  match admission r s with
  | some reason => refuse reason s
  | none => enter (accept r s)

/-- The lines between the last primitive of an operation that ends with result `r`, and its return. -/
def finish (r : Result) (s : State) : State :=
  match s.op with
  | .sync | .idle => retire r (setSync .unsynced s)
  | .calibrate | .snapshot => retire r (setAcc (accNext s.acc) s)
  | .tx | .rx | .read | .write | .configure | .keepalive => retire r s

/-- After a Send that ended TxOk: the receive step, or the return (R86, R87, R89, R95). DESIGN CHOICE: the lines between the
Send and what follows it run with the last primitive of the Send (log 17). -/
def afterSend (s : State) : State :=
  match s.op with
  | .tx | .idle | .rx => finish .ok s
  | .sync => setSeq .recvFirst 0 s
  | .read | .write | .calibrate | .configure | .snapshot | .keepalive =>
    if s.rsize = 0 then finish .ok s else setSeq .recvFirst 0 s

/-- After a receive step that got every byte: RX returns OK (R88), a command judges (R95, R96). -/
def received (s : State) : State :=
  match s.op with
  | .rx => finish .ok s
  | .sync | .tx | .idle | .read | .write | .calibrate | .configure | .snapshot | .keepalive => finish (judge s) s

/-- How many bytes the receive step in progress reads after its first one; the first is RBUF[0], un-reversed. -/
def restDue (s : State) : Nat :=
  match s.rbuf with
  | [] => 0
  | b :: _ => restLen s.cfg s.rsize (rev8 b)

/-- Are PHASE and IDX a position in OP's pseudocode (R25)? -/
def positionOk (s : State) : Bool :=
  match s.phase with
  | .lineReset => s.op == .sync
  | .flush => s.op != .rx
  | .sending => s.op != .rx && decide (s.idx < s.txbuf.length)
  | .recvFirst => s.op != .tx && s.op != .idle && (s.op == .sync || decide (1 ≤ s.rsize))
  | .recvRest =>
    s.op != .tx && s.op != .idle && s.op != .sync && decide (s.idx < restDue s ∧ s.rbuf.length = s.idx + 1)

/-- ChanFlush at the head of a Send (R34). -/
def advanceFlush (s : State) : State :=
  let t := setSeq .sending 0 (chanFlush s)
  if t.txbuf = [] then afterSend t else t

/-- One byte of the Send loop (R34). DESIGN CHOICE: the environment's choice of failure takes the tick of the byte it stands
before, which on a failure sends nothing (log 17). -/
def advanceSending (b : Byte) (s : State) : State :=
  if s.cfg.txCanFail && (envMove s).txFail then finish (.failTransport .txFail) (envAct s)
  else
    let t := setSeq .sending (s.idx + 1) (chanTxByte (rev8 b) (envAct s))
    if t.idx < t.txbuf.length then t else afterSend t

/-- The echo of SYNC (R86). -/
def advanceEcho (s : State) : State :=
  match chanRxByte s with
  | (none, t) => finish (.failTransport .rxEmpty) t
  | (some w, t) => retire (syncEcho w t).1 (syncEcho w t).2

/-- The first byte of the receive step (R88), which stands in RBUF from here on (R88, log 29). DESIGN CHOICE: the line
`RLEN <- 0` before this read runs in the read's own tick (log 17). -/
def advanceFirst (s : State) : State :=
  match chanRxByte (setRbuf [] s) with
  | (none, t) => finish (.failTransport .rxEmpty) t
  | (some w, t) =>
    let u := setSeq .recvRest 0 (setRbuf [rev8 w] t)
    if restDue u = 0 then received u else u

/-- A later byte of the receive step (R88). DESIGN CHOICE: R88 collects the bytes in a local list and writes RBUF and RLEN after
it; between two ticks the model holds the bytes read so far in RBUF itself, so that RLEN grows with each (log 29). -/
def advanceRest (s : State) : State :=
  match chanRxByte s with
  | (none, t) => finish (.failTransport .rxShort) t
  | (some w, t) =>
    let u := setSeq .recvRest (s.idx + 1) (setRbuf (t.rbuf ++ [rev8 w]) t)
    if u.idx < restDue u then u else received u

/-- The operation in progress runs its next channel primitive. DESIGN CHOICE: R25 gives PHASE no granularity, and SYNC's lines
between ChanLineReset and its flush (the re-initialised ACC, `RLEN <- 0`, the sync byte placed in TXBUF; R86) run in the
tick of ChanLineReset, the primitive before them (log 17). -/
def advance (s : State) : State :=
  match s.phase with
  | .lineReset => setSeq .flush 0 (syncPrologue s)
  | .flush => advanceFlush s
  | .sending =>
    match s.txbuf[s.idx]? with
    | none => s
    | some b => advanceSending b s
  | .recvFirst => if s.op = .sync then advanceEcho s else advanceFirst s
  | .recvRest => advanceRest s

/-- One tick: nothing happens between operations (R130: the engine waits), else the operation in progress advances. -/
def tick (s : State) : Host.Outcome State Fault Refusal :=
  if s.busy then
    if positionOk s then .next (advance s) else .fault .lostPhase
  else .next s

/-- The host operation an instruction requests; none for the rows that are no request (R67, R68). -/
def requestOf : Instr → Option Request
  | .sync => some { op := .sync }
  | .read ah al len rsize => some { op := .read, ah := ah, al := al, lv := len, rsize := rsize }
  | .write ah al val rsize => some { op := .write, ah := ah, al := al, lv := val, rsize := rsize }
  | .calibrate rsize => some { op := .calibrate, rsize := rsize }
  | .configure rsize => some { op := .configure, rsize := rsize }
  | .snapshot rsize => some { op := .snapshot, rsize := rsize }
  | .keepalive rsize => some { op := .keepalive, rsize := rsize }
  | .idle => some { op := .idle }
  | .tx l => some { op := .tx, bytes := l }
  | .rx n => some { op := .rx, rsize := n }
  | .readreg addr n =>
    some { op := .read, ah := hiByte addr, al := loByte addr, lv := n, rsize := n.toNat + 5 }
  | .writereg addr v rsize => some { op := .write, ah := hiByte addr, al := loByte addr, lv := v, rsize := rsize }
  | .flush => some { op := .tx, bytes := [] }
  | .respFull _ | .respShort _ | .respInvalid .. | .rev8 _ | .csum16 _ | .accnext _ => none

/-- An instruction handed over without blocking: an operation is begun, anything else happens at once. -/
def startInstr (i : Instr) (s : State) : Host.Outcome State Fault Refusal :=
  match requestOf i with
  | some r => .next (beginRequest r s)
  | none => exec i s

/-- An image that names no instruction; `run` is the way its requests are handed over. Outbound bytes that are no frame of a
command are sent as given: TX is the operation that sends any byte list, frame or not (R64, R87; log 30). Inbound bytes arrive
(R36; log 27). What is left is a pure function called outside its domain, which has no value (R75, R80, U17; log 24). -/
def runUndecoded (run : Instr → State → Host.Outcome State Fault Refusal) (e : DecodeError) (img : Image) (s : State) :
    Host.Outcome State Fault Refusal :=
  match img.port with
  | .command => run (.tx img.bytes) s
  | .line => .next (arrive img.bytes s)
  | .send | .receive | .rev8 | .csum16 | .accnext => .refused (.undecodable e)

end Sys2Proof.Machine
end

