-- ==== Sys2Proof/Machine/Step.lean ====
section
/-!
DEFINITION. One step: the host's next input, decoded and run; with none pending the operation in progress advances, and
with none in progress the engine waits (R130).
-/

namespace Sys2Proof.Machine

def step (s : State) : Host.Outcome State Fault Refusal :=
  match s.inputs with
  | [] => tick s
  | .tick :: rest => tick { s with inputs := rest }
  | .call img :: rest =>
    match decode s.cfg img with
    | .ok i => exec i { s with inputs := rest }
    | .error e => runUndecoded exec e img { s with inputs := rest }
  | .start img :: rest =>
    match decode s.cfg img with
    | .ok i => startInstr i { s with inputs := rest }
    | .error e => runUndecoded startInstr e img { s with inputs := rest }

/-- The state whose very next step runs the instruction of a table word: its image is the host's next request (log 22). -/
def State.withFetchWord (s : State) (nbits w : Nat) : State :=
  { s with inputs := .call (imageOfTableWord nbits w) :: s.inputs }

end Sys2Proof.Machine
end

