-- ==== Sys2Proof/Safety.lean ====
section
/-!
DEFINITION. What counts as a legal state and a safe run, in the terms the statements use: the machine's invariant, runs of
operations, the scripted device of 95_test_vectors.md section 0, and what a request transmits.
-/

namespace Sys2Proof.Machine

/-- A move of the environment that does nothing: no byte arrives, a read of an empty queue times out, no Send fails. -/
def EnvMove.quiet : EnvMove := ⟨[], none, false⟩

/-- The device of 95_test_vectors.md section 0 after a Send of `n` bytes: silent during the flush and the `n` bytes, its
answer (logical bytes `resp`, reversed on the wire) in RXQ before the next channel read, anything at all afterwards. -/
def deviceAnswers (n : Nat) (resp : List Byte) (later : List EnvMove) : List EnvMove :=
  List.replicate (n + 1) EnvMove.quiet ++ ⟨resp.map rev8, none, false⟩ :: later

/-- The line events of a list of logical bytes: every byte crosses reversed, in order (R34, R40). -/
def wireImage (l : List Byte) : List LineEvent := l.map fun b => .byte (rev8 b)

/-- The part of `Inv` about the configuration and the buffers (R13, R14, R85). -/
structure State.BuffersOk (s : State) : Prop where
  cfg_wf   : s.cfg.Wf
  rbuf_le  : s.rlen ≤ s.cfg.rbufMax
  txbuf_le : s.txlen ≤ s.cfg.txbufMax
  rsize_le : s.rsize ≤ s.cfg.rbufMax

/-- The machine's invariant: CFG is legal (R85), no buffer or size register is over its capacity (R10, R13, R14), the line
outputs are released (R16, R38), and while an operation is in progress PHASE and IDX are a position of its pseudocode (R25). -/
structure State.Inv (s : State) : Prop where
  buffers  : s.BuffersOk
  brk_low  : s.brk = false
  ctl_low  : s.ctl = false
  position : s.busy = true → positionOk s = true

/-- Is a request admitted (R85)? Instructions that are no request of an operation are not. -/
def admitted (i : Instr) (s : State) : Bool :=
  match requestOf i with
  | some r => admission r s == none
  | none => false

/-- The frame an operation transmits, in logical bytes (30_encoding.md section 1), with the operands of instruction `i`, the
counter and the configuration of state `s`; the bytes as given for TX (R87), none for RX. -/
def transmitted (i : Instr) (s : State) : List Byte :=
  match expand i with
  | .sync => [0xAA]
  | .read ah al len _ => frame [0x01, 0x04, 0x03, ah, al, len]
  | .write ah al val _ => frame [0x01, 0x05, 0x03, ah, al, val]
  | .calibrate _ => frame (0x55 :: accByte s.acc :: s.cfg.argsCal)
  | .configure _ => frame (0x60 :: accByte s.acc :: s.cfg.argsConf)
  | .snapshot _ => frame (0x61 :: accByte s.acc :: s.cfg.argsSnap)
  | .keepalive _ => frame (0x62 :: accByte s.acc :: s.cfg.argsKeep)
  | .idle => if s.cfg.idleTrailer then [0xB0, 0x00, 0xB0] else [0xB0]
  | .tx l => l
  | .rx _ | .respFull _ | .respShort _ | .respInvalid .. | .rev8 _ | .csum16 _ | .accnext _
  | .readreg .. | .writereg .. | .flush => []

/-- Does an instruction advance the counter when it is admitted (R99, R101)? -/
def advances : Instr → Bool
  | .calibrate _ | .snapshot _ => true
  | .sync | .read .. | .write .. | .configure _ | .keepalive _ | .idle | .respFull _ | .respShort _ | .respInvalid ..
  | .tx _ | .rx _ | .rev8 _ | .csum16 _ | .accnext _ | .readreg .. | .writereg .. | .flush => false

/-- The instructions run one after another, each from the state the one before left. -/
def runAll : List Instr → State → Host.Outcome State Fault Refusal
  | [], s => .next s
  | i :: l, s =>
    match exec i s with
    | .next t => runAll l t
    | .fault r => .fault r
    | .refused r => .refused r

/-- How many instructions of a run are CALIBRATE or SNAPSHOT and admitted (R81, R99). -/
def advancesIn : List Instr → State → Nat
  | [], _ => 0
  | i :: l, s =>
    (if advances i && admitted i s then 1 else 0) +
      match exec i s with
      | .next t => advancesIn l t
      | .fault _ => 0
      | .refused _ => 0

/-- `k` ticks of the sequencer. -/
def ticks : Nat → State → Host.Outcome State Fault Refusal
  | 0, s => .next s
  | k + 1, s =>
    match tick s with
    | .next t => ticks k t
    | .fault r => .fault r
    | .refused r => .refused r

end Sys2Proof.Machine
end

