-- ==== Sys2Proof/Certificates/Slice0/Obligations.lean ====
section
/-!
DEFINITION. The statements for the provers. Each docstring names the rules of spec/ it comes from; where a clause rests on a
choice of the model or on a decision the spec marks as its own, the docstring says so.
-/

open Sys2Proof Sys2Proof.Machine

/-! ### The datapath (40_datapath.md) -/

/-- R75, whole: bit k of REV8(b) is bit 7-k of b, the corner cases, and the 16 bytes that are their own reversal. -/
def Obligations.Rev8ReversesTheBitsOfAByte : Prop :=
  (∀ (b : Byte) (k : Nat), k < 8 → (rev8 b).getLsbD k = b.getLsbD (7 - k)) ∧
  rev8 0x00 = 0x00 ∧ rev8 0xFF = 0xFF ∧ rev8 0x01 = 0x80 ∧ rev8 0x80 = 0x01 ∧ rev8 0xAA = 0x55 ∧
  ∀ b : Byte, rev8 b = b ↔
    b ∈ ([0x00, 0x18, 0x24, 0x3C, 0x42, 0x5A, 0x66, 0x7E, 0x81, 0x99, 0xA5, 0xBD, 0xC3, 0xDB, 0xE7, 0xFF] : List Byte)

/-- R76, whole: REV8 is an involution and a bijection, permutes bit positions, and does not commute with addition. -/
def Obligations.Rev8IsAnInvolutionThatPermutesBits : Prop :=
  (∀ b : Byte, rev8 (rev8 b) = b) ∧ Function.Bijective rev8 ∧
  (∀ a b : Byte, rev8 (a ||| b) = rev8 a ||| rev8 b ∧ rev8 (a &&& b) = rev8 a &&& rev8 b ∧
    rev8 (a ^^^ b) = rev8 a ^^^ rev8 b) ∧
  (∀ b : Byte, rev8 (~~~b) = ~~~(rev8 b)) ∧
  (∀ b : Byte, ((List.range 8).filter fun k => (rev8 b).getLsbD k).length =
    ((List.range 8).filter fun k => b.getLsbD k).length) ∧
  ∃ a b : Byte, rev8 (a + b) ≠ rev8 a + rev8 b

/-- R77, whole: CSUM16 is the sum of the bytes modulo 2^16, with the corner cases and the bounds the rule gives. -/
def Obligations.Csum16IsTheSumOfTheBytesModulo65536 : Prop :=
  (∀ l : List Byte, (csum16 l).toNat = (l.map BitVec.toNat).sum % 65536) ∧
  csum16 [] = 0x0000 ∧ (∀ b : Byte, csum16 [b] = b.setWidth 16) ∧ csum16 [0x01, 0x02] = 0x0003 ∧
  (∀ l : List Byte, (l.map BitVec.toNat).sum < 65536 → (csum16 l).toNat = (l.map BitVec.toNat).sum) ∧
  (∀ l : List Byte, l.length < 258 → (l.map BitVec.toNat).sum < 65536) ∧
  (∀ l : List Byte, l.length ≤ 30 → (csum16 l).toNat = (l.map BitVec.toNat).sum ∧ (csum16 l).toNat ≤ 0x1DE2) ∧
  csum16 (List.replicate 257 0xFF) = 0xFFFF ∧ csum16 (List.replicate 258 0xFF) = 0x00FE

/-- R78, whole: CSUM16 does not depend on the order, adds over concatenation, and so misses the changes the rule lists. -/
def Obligations.Csum16IgnoresOrderAndAddsOverConcatenation : Prop :=
  (∀ l p : List Byte, List.Perm p l → csum16 p = csum16 l) ∧
  (∀ l m : List Byte, csum16 (l ++ m) = csum16 l + csum16 m) ∧
  (∀ l m : List Byte, csum16 (l ++ 0x00 :: m) = csum16 (l ++ m)) ∧
  (∀ (l m n : List Byte) (a b d : Byte), a.toNat + d.toNat < 256 → d.toNat ≤ b.toNat →
    csum16 (l ++ (a + d) :: m ++ (b - d) :: n) = csum16 (l ++ a :: m ++ b :: n))

/-- R79, whole: TRAILER is the checksum as two bytes, high byte first, and FRAME appends it. -/
def Obligations.TrailerIsTheChecksumHighByteFirst : Prop :=
  (∀ l : List Byte, ∃ hi lo : Byte, trailer l = [hi, lo] ∧ hi.toNat * 256 + lo.toNat = (csum16 l).toNat ∧
    frame l = l ++ [hi, lo] ∧ (l.length ≤ 30 → hi.toNat ≤ 0x1D)) ∧
  trailer [] = [0x00, 0x00] ∧ trailer [0x01, 0x04, 0x03, 0x00, 0x11, 0x04] = [0x00, 0x1D]

/-- R80, whole: ACCNEXT on its three values, its bit-level form, its cycle, and the sequence it steps through. -/
def Obligations.AccNextCyclesThroughFourTwelveTwentyEight : Prop :=
  accByte .four = 0x04 ∧ accByte .twelve = 0x0C ∧ accByte .twentyEight = 0x1C ∧
  accByte (accNext .four) = 0x0C ∧ accByte (accNext .twelve) = 0x1C ∧ accByte (accNext .twentyEight) = 0x04 ∧
  (∀ b : Byte, (∃ a, accOfByte b = some a ∧ accByte a = b) ↔ b ∈ ([0x04, 0x0C, 0x1C] : List Byte)) ∧
  (∀ b : Byte, accOfByte b = none ↔ b ∉ ([0x04, 0x0C, 0x1C] : List Byte)) ∧
  (∀ a, a ≠ .twentyEight → accByte (accNext a) = (accByte a <<< 1) ||| 4) ∧
  (∀ a, accNext (accNext (accNext a)) = a) ∧
  (∀ (a : Acc) (k : Nat), k < 3 → Config.accSeq[k]? = some (accByte a) →
    Config.accSeq[(k + 1) % 3]? = some (accByte (accNext a)))

/-- The rows REV8, CSUM16, ACCNEXT complete in every state: the requester is handed the value and nothing of S changes
(40_datapath.md, R29). That the value is handed over in `reply` is the model's choice, log 6. -/
def Obligations.PureFunctionsCompleteAndLeaveSUntouched : Prop :=
  ∀ s : State,
    (∀ b, exec (.rev8 b) s = .next { s with reply := .byte (rev8 b) }) ∧
    (∀ l, exec (.csum16 l) s = .next { s with reply := .word (csum16 l) }) ∧
    (∀ a, exec (.accnext a) s = .next { s with reply := .acc (accNext a) })

/-! ### Frames and their encodings (30_encoding.md) -/

/-- Decoding the image of a well-formed instruction gives the instruction back, a pseudo-operation as what it expands to
(R68), for every configuration and every counter value a frame may carry. The form of an image is the model's choice,
logs 1, 3, 4. -/
def Obligations.DecodeOfEncodeIsTheInstruction : Prop :=
  ∀ (c : Cfg) (a : Acc) (i : Instr), i.wf = true → decode c (encode c a i) = .ok (expand i)

/-- The encoded frame of an instruction begins with the fixed bits of its row of the opcode table. -/
def Obligations.EncodedFramesBeginAsTheirTableRow : Prop :=
  ∀ (c : Cfg) (a : Acc) (i : Instr) (r : Row), rowOf c i = some r → r.fits (encode c a i).bytes = true

/-- No frame begins as two rows of the table: the first bytes identify the operation or the response class (R62, R63). -/
def Obligations.NoFrameFitsTwoTableRows : Prop :=
  ∀ (c : Cfg) (i j : Instr) (r q : Row) (bytes : List Byte),
    rowOf c i = some r → rowOf c j = some q → r.fits bytes = true → q.fits bytes = true → r = q

/-- Outbound images that are neither a frame of 30_encoding.md nor such a frame without the bytes the engine itself supplies
(trailer; arguments and trailer) are rejected, each kind under its name: no byte, a first byte that is no opcode (R62), a
wrong length (R51, R52, R53, R65), a wrong marker byte (R52), an ACC byte outside the set (R53, R60), arguments or trailer of
an ACC frame other than CFG's and the checksum (R53, R57, R61), a wrong trailer (R54, R57). The last clause says that these are
all: an outbound image decodes exactly if it is one of the forms listed. The names, the forms without the supplied bytes, and
the idle frame read with or without its trailer whatever IDLE_TRAILER is, are the model's choice, logs 1, 3 and 28. -/
def Obligations.ReservedEncodingsAreRejectedByName : Prop :=
  ∀ (c : Cfg) (n : Nat),
    decode c ⟨.command, [], n⟩ = .error .empty ∧
    (∀ (b : Byte) (rest : List Byte), b ∉ ([0xAA, 0x01, 0x55, 0x60, 0x61, 0x62, 0xB0] : List Byte) →
      decode c ⟨.command, b :: rest, n⟩ = .error (.unknownOpcode b)) ∧
    (∀ rest : List Byte, rest ≠ [] → decode c ⟨.command, 0xAA :: rest, n⟩ = .error .badLength) ∧
    (∀ rest : List Byte, rest.length < 5 → decode c ⟨.command, 0x01 :: rest, n⟩ = .error .badLength) ∧
    (∀ (m0 m1 ah al lv : Byte) (t : List Byte), (m1 ≠ 0x03 ∨ (m0 ≠ 0x04 ∧ m0 ≠ 0x05)) →
      decode c ⟨.command, 0x01 :: m0 :: m1 :: ah :: al :: lv :: t, n⟩ = .error (.badMarker m0 m1)) ∧
    (∀ (ah al lv : Byte) (t : List Byte), t ≠ [] → t ≠ trailer [0x01, 0x04, 0x03, ah, al, lv] →
      decode c ⟨.command, 0x01 :: 0x04 :: 0x03 :: ah :: al :: lv :: t, n⟩ = .error .badTrailer) ∧
    (∀ (ah al lv : Byte) (t : List Byte), t ≠ [] → t ≠ trailer [0x01, 0x05, 0x03, ah, al, lv] →
      decode c ⟨.command, 0x01 :: 0x05 :: 0x03 :: ah :: al :: lv :: t, n⟩ = .error .badTrailer) ∧
    (∀ (op : Byte) (args : List Byte),
      (op, args) ∈ [((0x55 : Byte), c.argsCal), (0x60, c.argsConf), (0x61, c.argsSnap), (0x62, c.argsKeep)] →
      decode c ⟨.command, [op], n⟩ = .error .badLength ∧
      ∀ (a : Byte) (t : List Byte),
        (a ∉ ([0x04, 0x0C, 0x1C] : List Byte) → decode c ⟨.command, op :: a :: t, n⟩ = .error (.badAcc a)) ∧
        (a ∈ ([0x04, 0x0C, 0x1C] : List Byte) → t ≠ [] → t ≠ args ++ trailer (op :: a :: args) →
          decode c ⟨.command, op :: a :: t, n⟩ = .error .badArgs)) ∧
    (∀ (t : List Byte), t ≠ [] → t ≠ [0x00, 0xB0] → decode c ⟨.command, 0xB0 :: t, n⟩ = .error .badTrailer) ∧
    ∀ bytes : List Byte,
      (∃ i, decode c ⟨.command, bytes, n⟩ = .ok i) ↔
        bytes = [0xAA] ∨
        (∃ m0 ah al lv t, m0 ∈ ([0x04, 0x05] : List Byte) ∧ bytes = 0x01 :: m0 :: 0x03 :: ah :: al :: lv :: t ∧
          (t = [] ∨ t = trailer [0x01, m0, 0x03, ah, al, lv])) ∨
        (∃ op args a t,
          (op, args) ∈ [((0x55 : Byte), c.argsCal), (0x60, c.argsConf), (0x61, c.argsSnap), (0x62, c.argsKeep)] ∧
          a ∈ ([0x04, 0x0C, 0x1C] : List Byte) ∧ bytes = op :: a :: t ∧
          (t = [] ∨ t = args ++ trailer (op :: a :: args))) ∨
        bytes = [0xB0] ∨ bytes = [0xB0, 0x00, 0xB0]

/-- A few words written out from the spec's encodings decode to what they stand for (R51 to R56; V40, V45, V48). That a word is
decoded as an image, with its port and RSIZE beside the bytes, is the model's choice, log 1, and so is that a whole frame is
taken as its request (log 3) and that B0 00 B0 is IDLE also where IDLE_TRAILER is false (log 28). -/
def Obligations.WordsOfTheSpecDecode : Prop :=
  ∀ c : Cfg,
    decode c ⟨.command, [0xAA], 0⟩ = .ok .sync ∧
    decode c ⟨.command, [0x01, 0x04, 0x03, 0x00, 0x11, 0x04, 0x00, 0x1D], 9⟩ = .ok (.read 0x00 0x11 0x04 9) ∧
    decode c ⟨.command, [0x01, 0x05, 0x03, 0x00, 0x23, 0x5A, 0x00, 0x86], 0⟩ = .ok (.write 0x00 0x23 0x5A 0) ∧
    (c.argsCal = [0x00] → decode c ⟨.command, [0x55, 0x04, 0x00, 0x00, 0x59], 0⟩ = .ok (.calibrate 0)) ∧
    decode c ⟨.command, [0xB0, 0x00, 0xB0], 0⟩ = .ok .idle ∧
    decode c ⟨.line, [0x82, 0x07], 0⟩ = .ok (.respShort 0x07)

/-- R68, whole: READREG, WRITEREG and FLUSH each are the one operation they expand to; FLUSH flushes RXQ and sends nothing. -/
def Obligations.PseudoOperationsAreTheirExpansions : Prop :=
  ∀ (s : State) (addr : Word) (n v : Byte) (rsize : Nat),
    exec (.readreg addr n) s =
      exec (.read (addr.extractLsb' 8 8) (addr.extractLsb' 0 8) n (n.toNat + 5)) s ∧
    exec (.writereg addr v rsize) s =
      exec (.write (addr.extractLsb' 8 8) (addr.extractLsb' 0 8) v rsize) s ∧
    exec .flush s = exec (.tx []) s ∧
    (s.busy = false → ∃ t, exec .flush s = .next t ∧ t.rxq = [] ∧ t.tx = s.tx)

/-! ### Step and power-on -/

/-- A step runs the host's next input: a call whose image decodes runs that instruction, outbound bytes that are no frame of a
command are sent by TX as given, inbound bytes that are no row arrive in RXQ, a pure function outside its domain is refused,
a tick or an empty queue advances the operation in progress, and with none in progress nothing happens. The queue and its
entries are the model's, logs 1 and 17, and so is what it does with an image that decodes to nothing, logs 24, 27 and 30; that
the engine waits is R130. -/
def Obligations.StepRunsTheDecodedInstruction : Prop :=
  ∀ (s : State) (img : Image) (rest : List Input),
    (∀ i, s.inputs = .call img :: rest → decode s.cfg img = .ok i →
      step s = exec i { s with inputs := rest }) ∧
    (∀ i, s.inputs = .start img :: rest → decode s.cfg img = .ok i →
      step s = startInstr i { s with inputs := rest }) ∧
    (∀ e, s.inputs = .call img :: rest → decode s.cfg img = .error e → img.port = .command →
      step s = exec (.tx img.bytes) { s with inputs := rest }) ∧
    (∀ e, s.inputs = .start img :: rest → decode s.cfg img = .error e → img.port = .command →
      step s = startInstr (.tx img.bytes) { s with inputs := rest }) ∧
    (∀ e, (s.inputs = .call img :: rest ∨ s.inputs = .start img :: rest) → decode s.cfg img = .error e →
      img.port = .line → step s = .next { s with inputs := rest, rxq := s.rxq ++ img.bytes.map rev8 }) ∧
    (∀ e, (s.inputs = .call img :: rest ∨ s.inputs = .start img :: rest) → decode s.cfg img = .error e →
      img.port ≠ .command → img.port ≠ .line → step s = .refused (.undecodable e)) ∧
    (s.inputs = .tick :: rest → step s = tick { s with inputs := rest }) ∧
    (s.inputs = [] → step s = tick s) ∧
    (s.inputs = [] → s.busy = false → step s = .next s)

/-- Power-on leaves the fields R28 gives a value at that value (its column "ground" marks most of them as decisions of the
spec). The unspecified registers are not stated. Of CFG the reset table says "as configured": that power-on has the defaults of
R5, the OPEN ACC_REINIT_ON_SYNC among them, is the model's choice, log 14. -/
def Obligations.PowerOnLeavesTheStateOfTheResetTable : Prop :=
  accByte State.reset.acc = 0x04 ∧ State.reset.syncState = .unsynced ∧ State.reset.rlen = 0 ∧
  statusClass State.reset.rbuf = .none ∧ State.reset.brk = false ∧ State.reset.ctl = false ∧
  State.reset.tx = [] ∧ State.reset.result = .ok ∧ State.reset.busy = false ∧
  State.reset.cfg.shortRaw = 0x41 ∧ State.reset.cfg.idleTrailer = true ∧
  State.reset.cfg.accReinitOnSync = false ∧ State.reset.cfg.rxCsumCheck = false ∧
  State.reset.cfg.txCanFail = true ∧ State.reset.cfg.txbufMax = 32 ∧ State.reset.cfg.rbufMax = 260

/-- The machine's invariant holds at power-on. -/
def Obligations.PowerOnMeetsTheInvariant : Prop := State.reset.Inv

/-- Every step keeps the machine's invariant: a legal CFG (R85), no buffer or size register over its capacity (R10, R13, R14),
the line outputs released (R16, R38), and the sequencer at a position of its operation's pseudocode (R25). -/
def Obligations.EveryStepKeepsTheInvariant : Prop :=
  ∀ s t : State, s.Inv → step s = .next t → t.Inv

/-- From a legal state no step stops with a fault (R110: no trap; R125: no result is fatal), and every step answers a next state
but for one input: a call of REV8 on other than one byte or of ACCNEXT on other than one legal byte, which have no value (R75,
R80; log 24). -/
def Obligations.LegalStatesNeverFault : Prop :=
  ∀ s : State, s.Inv →
    (∀ f, step s ≠ .fault f) ∧
    ((∀ r, step s ≠ .refused r) → ∃ t, step s = .next t) ∧
    (∀ r, step s = .refused r → ∃ e img rest, r = .undecodable e ∧ decode s.cfg img = .error e ∧
      (s.inputs = .call img :: rest ∨ s.inputs = .start img :: rest) ∧
      ((img.port = .rev8 ∧ img.bytes.length ≠ 1) ∨ (img.port = .accnext ∧ ∀ a, img.bytes ≠ [accByte a])))

/-- No step writes CFG (R23), rewrites or removes an event of TX (R18), or leaves the line outputs asserted where they were
released (R16, R38). -/
def Obligations.EveryStepKeepsCfgAndExtendsTheTrace : Prop :=
  ∀ s t : State, step s = .next t →
    t.cfg = s.cfg ∧ (∃ new, t.tx = s.tx ++ new) ∧
    (s.brk = false → s.ctl = false → t.brk = false ∧ t.ctl = false)

/-! ### Admission (R85) -/

/-- A request while BUSY is 1 changes nothing of S, not even RESULT; the requester is handed REFUSED(BUSY) (R85 step 1; the
check is the spec's decision D2; `reply` is the model's, log 7). -/
def Obligations.RequestsWhileBusyChangeNothing : Prop :=
  ∀ (s : State) (i : Instr), s.busy = true → requestOf i ≠ none →
    exec i s = .next { s with reply := .result (.refused .busy) } ∧
    startInstr i s = .next { s with reply := .result (.refused .busy) }

/-- A request with an operand out of range changes RESULT and nothing else of S, whatever SYNC_STATE is: the operand check comes
before the sync gate (R85 step 2, R116; decisions D15, D28; V80). -/
def Obligations.OperandsOutOfRangeAreRefused : Prop :=
  ∀ s : State, s.busy = false →
    (∀ l, s.cfg.txbufMax < l.length →
      exec (.tx l) s = .next { s with result := .refused .badOperand, reply := .result (.refused .badOperand) }) ∧
    (∀ n, (n = 0 ∨ s.cfg.rbufMax < n) →
      exec (.rx n) s = .next { s with result := .refused .badOperand, reply := .result (.refused .badOperand) } ∧
      ∀ ah al len, exec (.read ah al len n) s =
        .next { s with result := .refused .badOperand, reply := .result (.refused .badOperand) }) ∧
    (∀ n i, s.cfg.rbufMax < n →
      ((∃ ah al v, i = .write ah al v n) ∨ (∃ addr v, i = .writereg addr v n) ∨ i = .calibrate n ∨ i = .configure n ∨
        i = .snapshot n ∨ i = .keepalive n) →
      exec i s = .next { s with result := .refused .badOperand, reply := .result (.refused .badOperand) }) ∧
    (∀ (addr : Word) (n : Byte), s.cfg.rbufMax < n.toNat + 5 →
      exec (.readreg addr n) s =
        .next { s with result := .refused .badOperand, reply := .result (.refused .badOperand) })

/-- Outside a session window a command whose operands are in range changes RESULT and nothing else of S: nothing is transmitted,
RXQ is not flushed, ACC does not advance (R85 step 3, R113; decision D20). -/
def Obligations.CommandsOutsideASessionAreRefused : Prop :=
  ∀ (s : State) (i : Instr) (r : Request), s.busy = false → s.syncState = .unsynced →
    requestOf i = some r → gated r.op = true → badOperand s.cfg r = false →
    exec i s = .next { s with result := .refused .unsynced, reply := .result (.refused .unsynced) }

/-- Every request that passes the three checks is admitted, runs, and completes with BUSY 0 and a result that is no refusal;
and exactly these are admitted (R85, R90, R110). Which operations are gated and the operand ranges are those of R85 steps 2
and 3, bounds included; every instruction but the inbound frames and the pure functions is a request. -/
def Obligations.AdmittedRequestsRunToTheirReturn : Prop :=
  (∀ op : OpKind, gated op = true ↔
    op = .read ∨ op = .write ∨ op = .calibrate ∨ op = .configure ∨ op = .snapshot ∨ op = .keepalive) ∧
  (∀ (c : Cfg) (r : Request), badOperand c r = false ↔
    (r.op = .tx → r.bytes.length ≤ c.txbufMax) ∧
    ((r.op = .rx ∨ r.op = .read) → 1 ≤ r.rsize ∧ r.rsize ≤ c.rbufMax) ∧
    ((r.op = .write ∨ r.op = .calibrate ∨ r.op = .configure ∨ r.op = .snapshot ∨ r.op = .keepalive) →
      r.rsize ≤ c.rbufMax)) ∧
  (∀ i : Instr, requestOf i = none ↔
    (∃ rest, i = .respFull rest) ∨ (∃ x, i = .respShort x) ∨ (∃ st rest, i = .respInvalid st rest) ∨
    (∃ b, i = .rev8 b) ∨ (∃ l, i = .csum16 l) ∨ ∃ a, i = .accnext a) ∧
  ∀ (s : State) (i : Instr) (r : Request), requestOf i = some r →
    (admitted i s = true ↔
      s.busy = false ∧ badOperand s.cfg r = false ∧ (gated r.op = true → s.syncState = .synced)) ∧
    (admitted i s = true → ∃ t, exec i s = .next t ∧ t.busy = false ∧ t.reply = .result t.result ∧
      ∀ reason, t.result ≠ .refused reason)

/-! ### Frames: what an operation leaves unchanged (R29) -/

/-- TX, FLUSH, RX, IDLE, SYNC: the fields each may write. TXBUF, CSUM, PHASE, IDX are hidden and hold unspecified values after an
operation (R13, R15, R25; log 11); OP, and RSIZE for RX, are loaded from the request that is admitted (R12; log 8); reply, env
and freeClock are the model's own. -/
def Obligations.TransportOperationsWriteOnlyTheirFields : Prop :=
  ∀ s t : State,
    (∀ i, (i = .flush ∨ ∃ l, i = .tx l) → exec i s = .next t →
      t = { s with
        op := if admitted i s = true then .tx else s.op, txbuf := t.txbuf, csum := t.csum, phase := t.phase, idx := t.idx, rxq := t.rxq, tx := t.tx,
        result := t.result, reply := t.reply, env := t.env, freeClock := t.freeClock }) ∧
    (∀ n, exec (.rx n) s = .next t →
      t = { s with
        op := if admitted (.rx n) s = true then .rx else s.op,
        rsize := if admitted (.rx n) s = true then n else s.rsize,
        rbuf := t.rbuf, txbuf := t.txbuf, csum := t.csum, phase := t.phase, idx := t.idx, rxq := t.rxq, result := t.result, reply := t.reply, env := t.env, freeClock := t.freeClock }) ∧
    (exec .idle s = .next t →
      t = { s with
        op := if s.busy then s.op else .idle, txbuf := t.txbuf, csum := t.csum, phase := t.phase, idx := t.idx, rxq := t.rxq, tx := t.tx,
        syncState := if s.busy then s.syncState else .unsynced,
        result := t.result, reply := t.reply, env := t.env, freeClock := t.freeClock }) ∧
    (exec .sync s = .next t →
      t = { s with
        op := if s.busy then s.op else .sync, rbuf := t.rbuf, txbuf := t.txbuf, csum := t.csum, phase := t.phase, idx := t.idx, rxq := t.rxq,
        tx := t.tx, syncState := t.syncState, brk := t.brk, ctl := t.ctl,
        acc := if s.busy = false ∧ s.cfg.accReinitOnSync = true then .four else s.acc,
        result := t.result, reply := t.reply, env := t.env, freeClock := t.freeClock })

/-- The six commands and the pseudo-operations READREG and WRITEREG: the fields each may write. OP and RSIZE, and AH, AL, LV for READ
and WRITE, are loaded from the request that is admitted (R12; log 8), ACC is written by an admitted CALIBRATE or SNAPSHOT and by no other (R99 to R102), RBUF only where
the size is not 0 (R29). SYNC_STATE is unchanged by every command, failed or not (R95, decision D22). -/
def Obligations.CommandsWriteOnlyTheirFields : Prop :=
  ∀ (s t : State) (i : Instr) (r : Request), requestOf i = some r → gated r.op = true → exec i s = .next t →
    t = { s with
      op := if admitted i s = true then r.op else s.op,
      rsize := if admitted i s = true then r.rsize else s.rsize,
      ah := if (r.op = .read ∨ r.op = .write) ∧ admitted i s = true then r.ah else s.ah,
      al := if (r.op = .read ∨ r.op = .write) ∧ admitted i s = true then r.al else s.al,
      lv := if (r.op = .read ∨ r.op = .write) ∧ admitted i s = true then r.lv else s.lv,
      rbuf := if r.rsize = 0 then s.rbuf else t.rbuf,
      acc := if advances i ∧ admitted i s = true then accNext s.acc else s.acc,
      txbuf := t.txbuf, csum := t.csum, phase := t.phase, idx := t.idx, rxq := t.rxq, tx := t.tx,
      result := t.result, reply := t.reply, env := t.env, freeClock := t.freeClock }

/-- A response frame of each class arrives: its wire bytes, each reversed, stand at the tail of RXQ and nothing else changes
(R17, R36, R40, R115). That the inbound rows are arrivals is the model's reading, log 5. -/
def Obligations.ResponseFramesArriveInTheQueue : Prop :=
  ∀ s : State,
    (∀ rest, exec (.respFull rest) s = .next { s with rxq := s.rxq ++ 0x81 :: rest.map rev8 }) ∧
    (∀ t, exec (.respShort t) s = .next { s with rxq := s.rxq ++ [0x41, rev8 t] }) ∧
    (∀ st rest, exec (.respInvalid st rest) s = .next { s with rxq := s.rxq ++ rev8 st :: rest.map rev8 })

/-! ### What is transmitted -/

/-- An admitted operation transmits its frame, every byte reversed and in order, SYNC after one LineReset event; where the
environment stops the Send it is a proper prefix of the frame, the result is then TX_FAIL, and TX_FAIL is reported in no
other case; it never happens where TX_CAN_FAIL is false (R34, R40, R69, R97 to R102, R86, R87, R89; the failure outcome is
decision D27). -/
def Obligations.OperationsTransmitTheirFrameReversed : Prop :=
  ∀ (s t : State) (i : Instr), admitted i s = true → exec i s = .next t →
    ∃ k, k ≤ (transmitted i s).length ∧
      t.tx = s.tx ++ (if i = .sync then [.lineReset] else []) ++ wireImage ((transmitted i s).take k) ∧
      (t.result = .failTransport .txFail ↔ k < (transmitted i s).length) ∧
      (s.cfg.txCanFail = false → k = (transmitted i s).length)

/-- Stale input never reaches an operation that sends: whatever RXQ held before it, its outcome is the same (R34, R37, R46, R47,
R139). The outcomes are compared as whole states: that TXBUF, CSUM, PHASE and IDX after the return, which R13, R15, R25 and R28
leave unspecified, agree in the two runs is the model's choice and no rule's (log 11). -/
def Obligations.StaleInputDoesNotReachSendingOperations : Prop :=
  ∀ (s : State) (i : Instr) (q : List Wire), admitted i s = true → (∀ n, i ≠ .rx n) →
    exec i { s with rxq := q } = exec i s

/-- What is transmitted, the counter and, but for SYNC, the session window do not depend on the environment where no
transmission can fail: two states that differ only in RXQ and the environment's moves give the same (R27, R36, R80). -/
def Obligations.TheEnvironmentCannotSteerWhatIsSent : Prop :=
  ∀ (s t t' : State) (i : Instr) (r : Request) (q : List Wire) (e : List EnvMove) (c : Nat), requestOf i = some r →
    s.cfg.txCanFail = false → exec i s = .next t →
    exec i { s with rxq := q, env := e, freeClock := c } = .next t' →
    t.tx = t'.tx ∧ t.acc = t'.acc ∧ (i ≠ .sync → t.syncState = t'.syncState)

/-! ### SYNC, TX, RX, IDLE (41_transport_ops.md) -/

/-- SYNC completes: the echo of the sync byte opens the session window, the line reset precedes the sync byte, the outputs end
released, the counter is kept unless ACC_REINIT_ON_SYNC (R86; decisions D6, D7, D13). -/
def Obligations.SyncWithItsEchoOpensTheSession : Prop :=
  ∀ (s : State) (later : List EnvMove), s.busy = false → s.env = deviceAnswers 2 [0xAA] later →
    ∃ t, exec .sync s = .next t ∧ t.result = .ok ∧ t.reply = .result .ok ∧ t.busy = false ∧
      t.syncState = .synced ∧ t.rbuf = [0xAA] ∧ t.tx = s.tx ++ [.lineReset, .byte 0x55] ∧ t.rxq = [] ∧
      t.brk = false ∧ t.ctl = false ∧ t.env = later ∧
      t.acc = if s.cfg.accReinitOnSync then .four else s.acc

/-- SYNC's other ends: a wrong echo, no echo, a failed transmission, each with its result, its RBUF and the window shut
(R86, R110; decisions D6, D23). -/
def Obligations.SyncReportsEachFailureAndShutsTheWindow : Prop :=
  ∀ (s t : State) (later : List EnvMove), s.busy = false → exec .sync s = .next t →
    (∀ b, b ≠ 0xAA → s.env = deviceAnswers 2 [b] later →
      t.result = .failProtocol .badEcho ∧ t.rbuf = [b] ∧ t.syncState = .unsynced) ∧
    (s.env = deviceAnswers 2 [] later →
      t.result = .failTransport .rxEmpty ∧ t.rbuf = [] ∧ t.syncState = .unsynced) ∧
    (s.cfg.txCanFail = true → s.env = List.replicate 2 EnvMove.quiet ++ ⟨[], none, true⟩ :: later →
      t.result = .failTransport .txFail ∧ t.rbuf = [] ∧ t.syncState = .unsynced ∧ t.tx = s.tx ++ [.lineReset])

/-- For every environment, a SYNC that was not refused ends in one of four ways, and the window is open exactly if the result
is OK and the one byte received is the sync byte (R20, R86). -/
def Obligations.SyncOpensTheSessionExactlyOnTheEcho : Prop :=
  ∀ s t : State, s.busy = false → exec .sync s = .next t →
    t.brk = false ∧ t.ctl = false ∧ (t.syncState = .synced ↔ t.result = .ok) ∧
    ((t.result = .ok ∧ t.rbuf = [0xAA]) ∨
      (t.result = .failProtocol .badEcho ∧ ∃ b, b ≠ 0xAA ∧ t.rbuf = [b]) ∨
      (t.result = .failTransport .rxEmpty ∧ t.rbuf = []) ∨
      (t.result = .failTransport .txFail ∧ t.rbuf = [] ∧ s.cfg.txCanFail = true))

/-- TX and FLUSH complete: the list goes out reversed, nothing is appended, RXQ is flushed (R87; V82, V82a). -/
def Obligations.TxSendsItsBytesAndFlushes : Prop :=
  ∀ (s : State) (l : List Byte) (later : List EnvMove), s.busy = false →
    (l.length ≤ s.cfg.txbufMax → s.env = List.replicate (l.length + 1) EnvMove.quiet ++ later →
      ∃ t, exec (.tx l) s = .next t ∧ t.result = .ok ∧ t.reply = .result .ok ∧ t.rxq = [] ∧ t.env = later ∧
        t.tx = s.tx ++ wireImage l ∧ t.rbuf = s.rbuf ∧ t.syncState = s.syncState ∧ t.acc = s.acc) ∧
    (∃ t, exec .flush s = .next t ∧ t.result = .ok ∧ t.reply = .result .ok ∧ t.rxq = [] ∧ t.tx = s.tx ∧
      t.rbuf = s.rbuf ∧ t.syncState = s.syncState ∧ t.acc = s.acc)

/-- IDLE completes: the idle frame goes out, with its trailer or bare, and the window is shut (R54, R89; decisions D8, D21). -/
def Obligations.IdleSendsItsFrameAndShutsTheWindow : Prop :=
  ∀ (s : State) (later : List EnvMove), s.busy = false →
    s.env = List.replicate ((transmitted .idle s).length + 1) EnvMove.quiet ++ later →
    ∃ t, exec .idle s = .next t ∧ t.result = .ok ∧ t.reply = .result .ok ∧ t.syncState = .unsynced ∧ t.rxq = [] ∧
      t.env = later ∧ t.rbuf = s.rbuf ∧ t.acc = s.acc ∧
      t.tx = s.tx ++ if s.cfg.idleTrailer then [.byte 0x0D, .byte 0x00, .byte 0x0D] else [.byte 0x0D]

/-- RX completes on a queue that holds all it is due, for every environment: exactly those bytes, un-reversed, in arrival order;
the others stay (R46, R65, R88). -/
def Obligations.RxTakesExactlyTheBytesItIsDue : Prop :=
  ∀ (s : State) (n : Nat) (w : Wire) (q : List Wire), s.busy = false → 1 ≤ n → n ≤ s.cfg.rbufMax → s.rxq = w :: q →
    (if w = s.cfg.shortRaw then 1 else n - 1) ≤ q.length →
    ∃ t new, exec (.rx n) s = .next t ∧ t.result = .ok ∧ t.reply = .result .ok ∧ t.tx = s.tx ∧
      t.rbuf = rev8 w :: (q.take (if w = s.cfg.shortRaw then 1 else n - 1)).map rev8 ∧
      t.rxq = q.drop (if w = s.cfg.shortRaw then 1 else n - 1) ++ new

/-- RX on a line that stays silent: what is in RXQ, and the result by whether it was enough; an incomplete read is never OK and
RBUF is never padded (R88, R111; V30 to V39). -/
def Obligations.RxReportsEmptyAndShortReads : Prop :=
  ∀ (s : State) (n : Nat) (later : List EnvMove), s.busy = false → 1 ≤ n → n ≤ s.cfg.rbufMax →
    s.env = List.replicate (n + 1) EnvMove.quiet ++ later →
    ∃ t, exec (.rx n) s = .next t ∧ t.tx = s.tx ∧ t.acc = s.acc ∧ t.syncState = s.syncState ∧
      (s.rxq = [] → t.result = .failTransport .rxEmpty ∧ t.rbuf = [] ∧ t.rxq = []) ∧
      (∀ w q m, s.rxq = w :: q → m = (if w = s.cfg.shortRaw then 1 else n - 1) →
        t.rbuf = rev8 w :: (q.take m).map rev8 ∧ t.rxq = q.drop m ∧
        t.result = if q.length < m then .failTransport .rxShort else .ok)

/-- A response frame of each class, arriving at an empty queue, is what the next RX of its size returns, with the status class of
its row (R19, R55, R56, R63, R65, R88); SHORT_RAW at its default, decision D5. -/
def Obligations.ArrivedFramesAreReadBackAndClassified : Prop :=
  ∀ s t : State, s.busy = false → s.rxq = [] → s.cfg.shortRaw = 0x41 →
    (∀ rest, rest.length + 1 ≤ s.cfg.rbufMax → exec (.respFull rest) s = .next t →
      ∃ u, exec (.rx (rest.length + 1)) t = .next u ∧ u.result = .ok ∧ u.rbuf = 0x81 :: rest ∧
        statusClass u.rbuf = .valid) ∧
    (∀ x n, 1 ≤ n → n ≤ s.cfg.rbufMax → exec (.respShort x) s = .next t →
      ∃ u, exec (.rx n) t = .next u ∧ u.result = .ok ∧ u.rbuf = [0x82, x] ∧ statusClass u.rbuf = .short) ∧
    (∀ st rest, Instr.wf (.respInvalid st rest) = true → rest.length + 1 ≤ s.cfg.rbufMax →
      exec (.respInvalid st rest) s = .next t →
      ∃ u, exec (.rx (rest.length + 1)) t = .next u ∧ u.result = .ok ∧ u.rbuf = st :: rest ∧
        statusClass u.rbuf = .invalid)

/-! ### The commands (42_command_ops.md) -/

/-- READ, WRITE, the four ACC commands, READREG and WRITEREG complete inside a session: against a device that answers a full frame of
the size asked for, the frame goes out, the answer is in RBUF un-reversed and the result is OK, whatever else the environment
does afterwards (R95 to R102; SHORT_RAW one of the two values of D5). -/
def Obligations.CommandsCompleteWithAFullResponse : Prop :=
  ∀ (s : State) (i : Instr) (r : Request) (rest : List Byte) (later : List EnvMove),
    requestOf i = some r → gated r.op = true → s.busy = false → s.syncState = .synced → badOperand s.cfg r = false →
    (s.cfg.shortRaw = 0x41 ∨ s.cfg.shortRaw = 0x82) → rest.length + 1 = r.rsize →
    (s.cfg.rxCsumCheck = true → rxSumOk (0x81 :: rest) = true) →
    s.env = deviceAnswers (transmitted i s).length (0x81 :: rest) later →
    ∃ t, exec i s = .next t ∧ t.result = .ok ∧ t.reply = .result .ok ∧ t.busy = false ∧ t.syncState = .synced ∧
      t.rbuf = 0x81 :: rest ∧ statusClass t.rbuf = .valid ∧ t.tx = s.tx ++ wireImage (transmitted i s) ∧
      t.acc = if advances i then accNext s.acc else s.acc

/-- WRITE, the four ACC commands and WRITEREG with size 0 complete: the frame goes out, nothing is read, RBUF is kept
(R95, R98 to R102; decision D15). -/
def Obligations.SendOnlyCommandsComplete : Prop :=
  ∀ (s : State) (i : Instr) (r : Request) (later : List EnvMove),
    requestOf i = some r → gated r.op = true → r.op ≠ .read → r.rsize = 0 → s.busy = false → s.syncState = .synced →
    s.env = List.replicate ((transmitted i s).length + 1) EnvMove.quiet ++ later →
    ∃ t, exec i s = .next t ∧ t.result = .ok ∧ t.reply = .result .ok ∧ t.busy = false ∧ t.syncState = .synced ∧
      t.rbuf = s.rbuf ∧ t.rxq = [] ∧ t.env = later ∧ t.tx = s.tx ++ wireImage (transmitted i s) ∧
      t.acc = if advances i then accNext s.acc else s.acc

/-- What a command reports of any answer at all, on a line that is silent but for that answer: the bytes taken, and the result by
the fixed order empty, short read, short frame, bad status, bad sum, OK (R88, R95, R96, R104, R116; decisions D17, D18, D33).
The counter, the window and the whole frame are as in a success (R99, R117). -/
def Obligations.CommandsJudgeAnyAnswer : Prop :=
  ∀ (s : State) (i : Instr) (r : Request) (resp : List Byte) (due : Nat) (later : List EnvMove),
    requestOf i = some r → gated r.op = true → s.busy = false → s.syncState = .synced → badOperand s.cfg r = false →
    1 ≤ r.rsize → due = (if resp.head?.map rev8 = some s.cfg.shortRaw then 2 else r.rsize) →
    s.env = deviceAnswers (transmitted i s).length resp (List.replicate r.rsize EnvMove.quiet ++ later) →
    ∃ t, exec i s = .next t ∧ t.rbuf = resp.take due ∧ t.rxq = (resp.drop due).map rev8 ∧
      t.syncState = .synced ∧ t.tx = s.tx ++ wireImage (transmitted i s) ∧
      t.acc = (if advances i then accNext s.acc else s.acc) ∧
      t.result =
        if resp = [] then .failTransport .rxEmpty
        else if resp.length < due then .failTransport .rxShort
        else if resp.head? = some 0x82 then .failProtocol .shortFrame
        else if resp.head? ≠ some 0x81 then .failProtocol .badStatus
        else if s.cfg.rxCsumCheck = true ∧ rxSumOk (resp.take due) = false then .failProtocol .badSum
        else .ok

/-- What RBUF and RLEN hold with each result of an admitted command that reads, for every environment: the column "what is
recorded" of R110 (its codes are decision D23; SHORT_RAW at its default, decision D5). -/
def Obligations.EachResultRecordsWhatTheTableSays : Prop :=
  ∀ (s t : State) (i : Instr) (r : Request), requestOf i = some r → gated r.op = true → 1 ≤ r.rsize →
    s.cfg.shortRaw = 0x41 → admitted i s = true → exec i s = .next t →
    (t.result = .ok ∧ t.rlen = r.rsize ∧ t.rbuf.head? = some 0x81) ∨
    (t.result = .failTransport .rxEmpty ∧ t.rbuf = []) ∨
    (t.result = .failTransport .rxShort ∧ 1 ≤ t.rlen ∧
      t.rlen < if t.rbuf.head? = some 0x82 then 2 else r.rsize) ∨
    (t.result = .failTransport .txFail ∧ t.rbuf = s.rbuf ∧ s.cfg.txCanFail = true) ∨
    (t.result = .failProtocol .shortFrame ∧ ∃ x, t.rbuf = [0x82, x]) ∨
    (t.result = .failProtocol .badStatus ∧ t.rlen = r.rsize ∧ t.rbuf.head? ≠ some 0x81 ∧ t.rbuf.head? ≠ some 0x82) ∨
    (t.result = .failProtocol .badSum ∧ t.rlen = r.rsize ∧ t.rbuf.head? = some 0x81 ∧ s.cfg.rxCsumCheck = true ∧
      rxSumOk t.rbuf = false)

/-- R19, whole: STATUS_CLASS is NONE on an empty buffer and else decided by the first byte alone; it is NONE after reset and
INVALID after a SYNC that succeeded. -/
def Obligations.StatusClassIsDecidedByTheFirstByte : Prop :=
  (∀ l : List Byte,
    (statusClass l = .none ↔ l.length = 0) ∧ (statusClass l = .valid ↔ 1 ≤ l.length ∧ l.head? = some 0x81) ∧
    (statusClass l = .short ↔ 1 ≤ l.length ∧ l.head? = some 0x82) ∧
    (statusClass l = .invalid ↔ 1 ≤ l.length ∧ l.head? ≠ some 0x81 ∧ l.head? ≠ some 0x82)) ∧
  statusClass State.reset.rbuf = .none ∧
  ∀ s t : State, s.busy = false → exec .sync s = .next t → t.result = .ok → statusClass t.rbuf = .invalid

/-- The optional check accepts exactly the frames that end in the checksum of the bytes before it, and a changed byte before the
trailer is always seen (R104; that the device sums so is the spec's assumption, decision D18). -/
def Obligations.TheReceiveCheckAcceptsExactlyTrueTrailers : Prop :=
  (∀ l : List Byte, rxSumOk l = true ↔ ∃ body, l = frame body) ∧
  (∀ (l m : List Byte) (a b : Byte), a ≠ b → rxSumOk (l ++ b :: m ++ trailer (l ++ a :: m)) = false)

/-- The host's slices of a full response (R55, R103; the split of the five bytes is decision D16). -/
def Obligations.ResponseSlicesAreTheFieldsOfTheFrame : Prop :=
  ∀ (eah eal hi lo : Byte) (payload : List Byte),
    respPayload (0x81 :: eah :: eal :: (payload ++ [hi, lo])) = payload ∧
    respEcho (0x81 :: eah :: eal :: (payload ++ [hi, lo])) = [eah, eal] ∧
    respTrailer (0x81 :: eah :: eal :: (payload ++ [hi, lo])) = [hi, lo]

/-! ### The counter and the window over whole runs -/

/-- R11: ACC is written by an admitted CALIBRATE or SNAPSHOT, which replace it by ACCNEXT(ACC), and, if and only if
ACC_REINIT_ON_SYNC is true, by SYNC, which sets it to 0x04; and by nothing else. -/
def Obligations.CalibrateSnapshotAndReinitSyncAloneWriteTheCounter : Prop :=
  ∀ (s t : State) (i : Instr), exec i s = .next t →
    t.acc =
      if admitted i s = true ∧ advances i = true then accNext s.acc
      else if admitted i s = true ∧ i = .sync ∧ s.cfg.accReinitOnSync = true then .four
      else s.acc

/-- R24, whole: in every state the counter's byte is 0x04, 0x0C or 0x1C, an element of ACC_SEQ, its bits 1, 0, 7, 6, 5 are 0 and
its bit 2 is 1. -/
def Obligations.TheCounterIsOneOfItsThreeValues : Prop :=
  ∀ s : State,
    accByte s.acc ∈ ([0x04, 0x0C, 0x1C] : List Byte) ∧ (∃ k, k < 3 ∧ Config.accSeq[k]? = some (accByte s.acc)) ∧
    (accByte s.acc).getLsbD 0 = false ∧ (accByte s.acc).getLsbD 1 = false ∧ (accByte s.acc).getLsbD 2 = true ∧
    (accByte s.acc).getLsbD 5 = false ∧ (accByte s.acc).getLsbD 6 = false ∧ (accByte s.acc).getLsbD 7 = false ∧
    accByte (accNext s.acc) ∈ ([0x04, 0x0C, 0x1C] : List Byte)

/-- R81: over any run of operations from ACC = 4, with no SYNC in it where ACC_REINIT_ON_SYNC is true, the counter is element
N mod 3 of the sequence, N the number of CALIBRATE and SNAPSHOT that were admitted; and the run completes. -/
def Obligations.TheCounterCountsAdmittedCalls : Prop :=
  ∀ (l : List Instr) (s : State), s.acc = .four → (s.cfg.accReinitOnSync = true → Instr.sync ∉ l) →
    ∃ t, runAll l s = .next t ∧ Config.accSeq[advancesIn l s % 3]? = some (accByte t.acc)

/-- R20: SYNC_STATE is written by SYNC and IDLE alone; IDLE shuts the window; SYNC opens it exactly with result OK (decisions
D20 to D22). -/
def Obligations.OnlySyncAndIdleMoveTheWindow : Prop :=
  ∀ (s t : State) (i : Instr), exec i s = .next t →
    (i ≠ .sync → i ≠ .idle → t.syncState = s.syncState) ∧
    (i = .idle → s.busy = false → t.syncState = .unsynced) ∧
    (i = .sync → s.busy = false → (t.syncState = .synced ↔ t.result = .ok)) ∧
    (s.busy = true → t.syncState = s.syncState)

/-- Inside a run, a command is carried out only in a window: if an instruction that names a command put any event on the line,
SYNC_STATE was SYNCED before it (R20, R85, R132). -/
def Obligations.CommandsReachTheLineOnlyInsideAWindow : Prop :=
  ∀ (s t : State) (i : Instr) (r : Request), requestOf i = some r → gated r.op = true → exec i s = .next t →
    t.tx ≠ s.tx → s.syncState = .synced ∧ s.busy = false

/-! ### The channel, the frame builder, the sequencer -/

/-- The environment's move appends to the tail of RXQ and touches no field of S besides; the primitives do what their rules say
around it (R31, R32, R33, R36, R38). -/
def Obligations.ChannelPrimitivesTouchOnlyTheChannel : Prop :=
  ∀ s : State,
    (∃ new, envAct s = { s with rxq := s.rxq ++ new, env := (envAct s).env, freeClock := (envAct s).freeClock }) ∧
    (chanFlush s = { s with rxq := [], env := (envAct s).env, freeClock := (envAct s).freeClock }) ∧
    (∀ w, chanTxByte w s = { s with tx := s.tx ++ [.byte w] }) ∧
    (∀ w q, s.rxq = w :: q → ∃ new, chanRxByte s = (some w, { envAct s with rxq := q ++ new })) ∧
    (s.rxq = [] → (envMove s).arrive = [] → chanRxByte s = ((envMove s).late, envAct s)) ∧
    (∃ new, chanLineReset s =
      { s with rxq := s.rxq ++ new, tx := s.tx ++ [.lineReset], brk := false, ctl := false, env := (envAct s).env,
               freeClock := (envAct s).freeClock })

/-- Recv(n): at most n bytes; on a queue that holds n bytes exactly the first n, in order, and the rest stays; Recv(0) does not
touch the channel; a list shorter than n means a read found the queue empty and timed out (R35, R43). -/
def Obligations.RecvTakesBytesInArrivalOrder : Prop :=
  ∀ (n : Nat) (s : State),
    (recv n s).1.length ≤ n ∧ recv 0 s = ([], s) ∧
    (n ≤ s.rxq.length →
      (recv n s).1 = s.rxq.take n ∧ ∃ new, (recv n s).2.rxq = s.rxq.drop n ++ new) ∧
    ((recv n s).1.length < n → (recv n s).2.rxq = [] ∧ s.rxq.length < n) ∧
    (recv n s).2.tx = s.tx

/-- The frame builder and the checksum generator leave FRAME(body) in TXBUF and the sum of the body in CSUM, accumulated byte by
byte, and change nothing else (R13, R15, R57). -/
def Obligations.FrameBuilderAccumulatesTheChecksum : Prop :=
  ∀ (body : List Byte) (s : State),
    buildFrame body s = { s with txbuf := body ++ trailer body, csum := csum16 body } ∧
    placeBytes body s = { s with txbuf := body, csum := csum16 body }

/-- The sequencer refines the atomic operation: a request handed to it, advanced primitive by primitive, ends in the very state the
blocking request ends in, for every environment (R22, R25, R85 step 4, R90: every admitted operation ends). The granularity
is the model's, log 17. The two ends are compared as whole states: that TXBUF, CSUM, PHASE and IDX after the return, which R13,
R15, R25 and R28 leave unspecified, agree is the model's choice and no rule's (log 11). -/
def Obligations.TheSequencerRefinesTheAtomicOperation : Prop :=
  ∀ (s : State) (i : Instr), admitted i s = true →
    ∃ k t, startInstr i s = .next t ∧ t.busy = true ∧ ticks k t = exec i s
end

