-- ==== Sys2Proof/Laws/Datapath.lean ====
section
/-!
SUPPORT. Laws of the pure functions that the other laws rest on.
-/

namespace Sys2Proof.Machine

/-- REV8 is its own inverse, so that a byte sent and received back is the byte (R76). -/
@[simp] theorem rev8_rev8 (b : Byte) : rev8 (rev8 b) = b := by revert b; decide

theorem rev8_eq_iff (a b : Byte) : rev8 a = b ↔ a = rev8 b := by
  constructor <;> rintro rfl <;> simp

@[simp] theorem map_rev8_map_rev8 (l : List Byte) : (l.map rev8).map rev8 = l := by
  simp [Function.comp_def]

theorem foldl_csumAdd (l : List Byte) (c : Word) : l.foldl csumAdd c = c + csum16 l := by
  induction l generalizing c with
  | nil => simp [csum16]
  | cons b l ih =>
    have h := ih (csumAdd 0 b)
    simp only [csum16, List.foldl_cons] at *
    rw [ih, h]
    simp [csumAdd, BitVec.add_assoc]

/-- The byte by byte accumulation of R15 splits a list where one likes (R78). -/
theorem csum16_append (l m : List Byte) : csum16 (l ++ m) = csum16 l + csum16 m := by
  show (l ++ m).foldl csumAdd 0 = _
  rw [List.foldl_append, foldl_csumAdd]
  rfl

theorem csum16_cons (b : Byte) (l : List Byte) : csum16 (b :: l) = b.setWidth 16 + csum16 l := by
  show (b :: l).foldl csumAdd 0 = _
  rw [List.foldl_cons, foldl_csumAdd]
  simp [csumAdd]

@[simp] theorem bigEndian_length (w : Word) : (bigEndian w).length = 2 := rfl

@[simp] theorem trailer_length (l : List Byte) : (trailer l).length = 2 := rfl

@[simp] theorem frame_length (l : List Byte) : (frame l).length = l.length + 2 := by simp [frame]

@[simp] theorem accOfByte_accByte (a : Acc) : accOfByte (accByte a) = some a := by cases a <;> decide

end Sys2Proof.Machine
end

