-- ==== Sys2Proof/Laws/Decode.lean ====
section
/-!
SUPPORT. Laws of the decoder: the opcode map opcode by opcode, and the frame forms a decoder accepts.
-/

namespace Sys2Proof

open Machine

theorem trailer_ne_nil (l : List Byte) : trailer l ≠ [] := by simp [trailer, bigEndian]

/-! ### The opcode map (R62), opcode by opcode -/

theorem decodeCommand_generic (c : Cfg) (rest : List Byte) (n : Nat) :
    decodeCommand c (Config.opGeneric :: rest) n = decodeGeneric rest n := rfl

theorem decodeCommand_calibrate (c : Cfg) (rest : List Byte) (n : Nat) :
    decodeCommand c (Config.opCalibrate :: rest) n =
      decodeAccFrame Config.opCalibrate c.argsCal rest (.calibrate n) := rfl

theorem decodeCommand_configure (c : Cfg) (rest : List Byte) (n : Nat) :
    decodeCommand c (Config.opConfigure :: rest) n =
      decodeAccFrame Config.opConfigure c.argsConf rest (.configure n) := rfl

theorem decodeCommand_snapshot (c : Cfg) (rest : List Byte) (n : Nat) :
    decodeCommand c (Config.opSnapshot :: rest) n =
      decodeAccFrame Config.opSnapshot c.argsSnap rest (.snapshot n) := rfl

theorem decodeCommand_keepalive (c : Cfg) (rest : List Byte) (n : Nat) :
    decodeCommand c (Config.opKeepalive :: rest) n =
      decodeAccFrame Config.opKeepalive c.argsKeep rest (.keepalive n) := rfl

theorem decodeCommand_idle (c : Cfg) (rest : List Byte) (n : Nat) :
    decodeCommand c (Config.opIdle :: rest) n =
      if rest = [] ∨ rest = trailer [Config.opIdle] then .ok .idle else .error .badTrailer := rfl

/-! ### Whole frames -/

theorem decodeGeneric_read (ah al lv : Byte) (n : Nat) :
    decodeGeneric (Config.mark0Read :: Config.mark1 :: ah :: al :: lv ::
      trailer [Config.opGeneric, Config.mark0Read, Config.mark1, ah, al, lv]) n = .ok (.read ah al lv n) := by
  simp only [decodeGeneric, true_or, or_true, and_self, if_true]

theorem decodeGeneric_write (ah al lv : Byte) (n : Nat) :
    decodeGeneric (Config.mark0Write :: Config.mark1 :: ah :: al :: lv ::
      trailer [Config.opGeneric, Config.mark0Write, Config.mark1, ah, al, lv]) n = .ok (.write ah al lv n) := by
  simp only [decodeGeneric, or_true, and_self, if_true]
  rfl

theorem decodeAccFrame_frame (op : Byte) (a : Acc) (args : List Byte) (i : Instr) :
    decodeAccFrame op args (accByte a :: (args ++ trailer (op :: accByte a :: args))) i = .ok i := by
  simp only [decodeAccFrame, accOfByte_accByte, reduceCtorEq, or_true, if_true, if_false]

/-! ### What the decoder rejects -/

/-- Only four kinds of image are rejected: outbound bytes, inbound bytes, and a pure function outside its domain. -/
theorem decode_error_port {c : Cfg} {img : Image} {e : DecodeError} (h : decode c img = .error e) :
    img.port = .command ∨ img.port = .line ∨ (img.port = .rev8 ∧ img.bytes.length ≠ 1) ∨
      (img.port = .accnext ∧ ∀ a, img.bytes ≠ [accByte a]) := by
  rcases img with ⟨port, bytes, n⟩
  cases port
  case command => simp
  case line => simp
  case send => simp [decode] at h
  case receive => simp [decode] at h
  case csum16 => simp [decode] at h
  case rev8 =>
    rcases bytes with _ | ⟨b, _ | ⟨b', l⟩⟩
    · simp
    · simp [decode] at h
    · simp
  case accnext =>
    refine .inr (.inr (.inr ⟨rfl, fun a ha => ?_⟩))
    simp only at ha
    subst ha
    simp [decode] at h

end Sys2Proof
end

