-- ==== Sys2Proof/Laws/State.lean ====
section
/-!
SUPPORT. One lemma per field per update, true by rfl, so that no proof unfolds a record update.
-/

namespace Sys2Proof.Machine

variable (s : State)

@[simp] theorem envAct_acc : (envAct s).acc = s.acc := rfl
@[simp] theorem envAct_syncState : (envAct s).syncState = s.syncState := rfl
@[simp] theorem envAct_op : (envAct s).op = s.op := rfl
@[simp] theorem envAct_ah : (envAct s).ah = s.ah := rfl
@[simp] theorem envAct_al : (envAct s).al = s.al := rfl
@[simp] theorem envAct_lv : (envAct s).lv = s.lv := rfl
@[simp] theorem envAct_rsize : (envAct s).rsize = s.rsize := rfl
@[simp] theorem envAct_txbuf : (envAct s).txbuf = s.txbuf := rfl
@[simp] theorem envAct_rbuf : (envAct s).rbuf = s.rbuf := rfl
@[simp] theorem envAct_csum : (envAct s).csum = s.csum := rfl
@[simp] theorem envAct_brk : (envAct s).brk = s.brk := rfl
@[simp] theorem envAct_ctl : (envAct s).ctl = s.ctl := rfl
@[simp] theorem envAct_rxq : (envAct s).rxq = s.rxq ++ (envMove s).arrive := rfl
@[simp] theorem envAct_tx : (envAct s).tx = s.tx := rfl
@[simp] theorem envAct_result : (envAct s).result = s.result := rfl
@[simp] theorem envAct_busy : (envAct s).busy = s.busy := rfl
@[simp] theorem envAct_phase : (envAct s).phase = s.phase := rfl
@[simp] theorem envAct_idx : (envAct s).idx = s.idx := rfl
@[simp] theorem envAct_cfg : (envAct s).cfg = s.cfg := rfl
@[simp] theorem envAct_reply : (envAct s).reply = s.reply := rfl
@[simp] theorem envAct_inputs : (envAct s).inputs = s.inputs := rfl
@[simp] theorem envAct_env : (envAct s).env = s.env.tail := rfl
@[simp] theorem envAct_freeClock : (envAct s).freeClock = if s.env = [] then s.freeClock + 1 else s.freeClock := rfl

@[simp] theorem setRxq_acc (q : List Wire) : (setRxq q s).acc = s.acc := rfl
@[simp] theorem setRxq_syncState (q : List Wire) : (setRxq q s).syncState = s.syncState := rfl
@[simp] theorem setRxq_op (q : List Wire) : (setRxq q s).op = s.op := rfl
@[simp] theorem setRxq_ah (q : List Wire) : (setRxq q s).ah = s.ah := rfl
@[simp] theorem setRxq_al (q : List Wire) : (setRxq q s).al = s.al := rfl
@[simp] theorem setRxq_lv (q : List Wire) : (setRxq q s).lv = s.lv := rfl
@[simp] theorem setRxq_rsize (q : List Wire) : (setRxq q s).rsize = s.rsize := rfl
@[simp] theorem setRxq_txbuf (q : List Wire) : (setRxq q s).txbuf = s.txbuf := rfl
@[simp] theorem setRxq_rbuf (q : List Wire) : (setRxq q s).rbuf = s.rbuf := rfl
@[simp] theorem setRxq_csum (q : List Wire) : (setRxq q s).csum = s.csum := rfl
@[simp] theorem setRxq_brk (q : List Wire) : (setRxq q s).brk = s.brk := rfl
@[simp] theorem setRxq_ctl (q : List Wire) : (setRxq q s).ctl = s.ctl := rfl
@[simp] theorem setRxq_rxq (q : List Wire) : (setRxq q s).rxq = q := rfl
@[simp] theorem setRxq_tx (q : List Wire) : (setRxq q s).tx = s.tx := rfl
@[simp] theorem setRxq_result (q : List Wire) : (setRxq q s).result = s.result := rfl
@[simp] theorem setRxq_busy (q : List Wire) : (setRxq q s).busy = s.busy := rfl
@[simp] theorem setRxq_phase (q : List Wire) : (setRxq q s).phase = s.phase := rfl
@[simp] theorem setRxq_idx (q : List Wire) : (setRxq q s).idx = s.idx := rfl
@[simp] theorem setRxq_cfg (q : List Wire) : (setRxq q s).cfg = s.cfg := rfl
@[simp] theorem setRxq_reply (q : List Wire) : (setRxq q s).reply = s.reply := rfl
@[simp] theorem setRxq_inputs (q : List Wire) : (setRxq q s).inputs = s.inputs := rfl
@[simp] theorem setRxq_env (q : List Wire) : (setRxq q s).env = s.env := rfl
@[simp] theorem setRxq_freeClock (q : List Wire) : (setRxq q s).freeClock = s.freeClock := rfl

@[simp] theorem setFrame_acc (l : List Byte) (c : Word) : (setFrame l c s).acc = s.acc := rfl
@[simp] theorem setFrame_syncState (l : List Byte) (c : Word) : (setFrame l c s).syncState = s.syncState := rfl
@[simp] theorem setFrame_op (l : List Byte) (c : Word) : (setFrame l c s).op = s.op := rfl
@[simp] theorem setFrame_ah (l : List Byte) (c : Word) : (setFrame l c s).ah = s.ah := rfl
@[simp] theorem setFrame_al (l : List Byte) (c : Word) : (setFrame l c s).al = s.al := rfl
@[simp] theorem setFrame_lv (l : List Byte) (c : Word) : (setFrame l c s).lv = s.lv := rfl
@[simp] theorem setFrame_rsize (l : List Byte) (c : Word) : (setFrame l c s).rsize = s.rsize := rfl
@[simp] theorem setFrame_txbuf (l : List Byte) (c : Word) : (setFrame l c s).txbuf = l := rfl
@[simp] theorem setFrame_rbuf (l : List Byte) (c : Word) : (setFrame l c s).rbuf = s.rbuf := rfl
@[simp] theorem setFrame_csum (l : List Byte) (c : Word) : (setFrame l c s).csum = c := rfl
@[simp] theorem setFrame_brk (l : List Byte) (c : Word) : (setFrame l c s).brk = s.brk := rfl
@[simp] theorem setFrame_ctl (l : List Byte) (c : Word) : (setFrame l c s).ctl = s.ctl := rfl
@[simp] theorem setFrame_rxq (l : List Byte) (c : Word) : (setFrame l c s).rxq = s.rxq := rfl
@[simp] theorem setFrame_tx (l : List Byte) (c : Word) : (setFrame l c s).tx = s.tx := rfl
@[simp] theorem setFrame_result (l : List Byte) (c : Word) : (setFrame l c s).result = s.result := rfl
@[simp] theorem setFrame_busy (l : List Byte) (c : Word) : (setFrame l c s).busy = s.busy := rfl
@[simp] theorem setFrame_phase (l : List Byte) (c : Word) : (setFrame l c s).phase = s.phase := rfl
@[simp] theorem setFrame_idx (l : List Byte) (c : Word) : (setFrame l c s).idx = s.idx := rfl
@[simp] theorem setFrame_cfg (l : List Byte) (c : Word) : (setFrame l c s).cfg = s.cfg := rfl
@[simp] theorem setFrame_reply (l : List Byte) (c : Word) : (setFrame l c s).reply = s.reply := rfl
@[simp] theorem setFrame_inputs (l : List Byte) (c : Word) : (setFrame l c s).inputs = s.inputs := rfl
@[simp] theorem setFrame_env (l : List Byte) (c : Word) : (setFrame l c s).env = s.env := rfl
@[simp] theorem setFrame_freeClock (l : List Byte) (c : Word) : (setFrame l c s).freeClock = s.freeClock := rfl

@[simp] theorem chanFlush_acc : (chanFlush s).acc = s.acc := rfl
@[simp] theorem chanFlush_syncState : (chanFlush s).syncState = s.syncState := rfl
@[simp] theorem chanFlush_op : (chanFlush s).op = s.op := rfl
@[simp] theorem chanFlush_ah : (chanFlush s).ah = s.ah := rfl
@[simp] theorem chanFlush_al : (chanFlush s).al = s.al := rfl
@[simp] theorem chanFlush_lv : (chanFlush s).lv = s.lv := rfl
@[simp] theorem chanFlush_rsize : (chanFlush s).rsize = s.rsize := rfl
@[simp] theorem chanFlush_txbuf : (chanFlush s).txbuf = s.txbuf := rfl
@[simp] theorem chanFlush_rbuf : (chanFlush s).rbuf = s.rbuf := rfl
@[simp] theorem chanFlush_csum : (chanFlush s).csum = s.csum := rfl
@[simp] theorem chanFlush_brk : (chanFlush s).brk = s.brk := rfl
@[simp] theorem chanFlush_ctl : (chanFlush s).ctl = s.ctl := rfl
@[simp] theorem chanFlush_rxq : (chanFlush s).rxq = [] := rfl
@[simp] theorem chanFlush_tx : (chanFlush s).tx = s.tx := rfl
@[simp] theorem chanFlush_result : (chanFlush s).result = s.result := rfl
@[simp] theorem chanFlush_busy : (chanFlush s).busy = s.busy := rfl
@[simp] theorem chanFlush_phase : (chanFlush s).phase = s.phase := rfl
@[simp] theorem chanFlush_idx : (chanFlush s).idx = s.idx := rfl
@[simp] theorem chanFlush_cfg : (chanFlush s).cfg = s.cfg := rfl
@[simp] theorem chanFlush_reply : (chanFlush s).reply = s.reply := rfl
@[simp] theorem chanFlush_inputs : (chanFlush s).inputs = s.inputs := rfl
@[simp] theorem chanFlush_env : (chanFlush s).env = s.env.tail := rfl
@[simp] theorem chanFlush_freeClock : (chanFlush s).freeClock = if s.env = [] then s.freeClock + 1 else s.freeClock := rfl

@[simp] theorem chanTxByte_acc (w : Wire) : (chanTxByte w s).acc = s.acc := rfl
@[simp] theorem chanTxByte_syncState (w : Wire) : (chanTxByte w s).syncState = s.syncState := rfl
@[simp] theorem chanTxByte_op (w : Wire) : (chanTxByte w s).op = s.op := rfl
@[simp] theorem chanTxByte_ah (w : Wire) : (chanTxByte w s).ah = s.ah := rfl
@[simp] theorem chanTxByte_al (w : Wire) : (chanTxByte w s).al = s.al := rfl
@[simp] theorem chanTxByte_lv (w : Wire) : (chanTxByte w s).lv = s.lv := rfl
@[simp] theorem chanTxByte_rsize (w : Wire) : (chanTxByte w s).rsize = s.rsize := rfl
@[simp] theorem chanTxByte_txbuf (w : Wire) : (chanTxByte w s).txbuf = s.txbuf := rfl
@[simp] theorem chanTxByte_rbuf (w : Wire) : (chanTxByte w s).rbuf = s.rbuf := rfl
@[simp] theorem chanTxByte_csum (w : Wire) : (chanTxByte w s).csum = s.csum := rfl
@[simp] theorem chanTxByte_brk (w : Wire) : (chanTxByte w s).brk = s.brk := rfl
@[simp] theorem chanTxByte_ctl (w : Wire) : (chanTxByte w s).ctl = s.ctl := rfl
@[simp] theorem chanTxByte_rxq (w : Wire) : (chanTxByte w s).rxq = s.rxq := rfl
@[simp] theorem chanTxByte_tx (w : Wire) : (chanTxByte w s).tx = s.tx ++ [.byte w] := rfl
@[simp] theorem chanTxByte_result (w : Wire) : (chanTxByte w s).result = s.result := rfl
@[simp] theorem chanTxByte_busy (w : Wire) : (chanTxByte w s).busy = s.busy := rfl
@[simp] theorem chanTxByte_phase (w : Wire) : (chanTxByte w s).phase = s.phase := rfl
@[simp] theorem chanTxByte_idx (w : Wire) : (chanTxByte w s).idx = s.idx := rfl
@[simp] theorem chanTxByte_cfg (w : Wire) : (chanTxByte w s).cfg = s.cfg := rfl
@[simp] theorem chanTxByte_reply (w : Wire) : (chanTxByte w s).reply = s.reply := rfl
@[simp] theorem chanTxByte_inputs (w : Wire) : (chanTxByte w s).inputs = s.inputs := rfl
@[simp] theorem chanTxByte_env (w : Wire) : (chanTxByte w s).env = s.env := rfl
@[simp] theorem chanTxByte_freeClock (w : Wire) : (chanTxByte w s).freeClock = s.freeClock := rfl

@[simp] theorem setLines_acc (v : Bool) : (setLines v s).acc = s.acc := rfl
@[simp] theorem setLines_syncState (v : Bool) : (setLines v s).syncState = s.syncState := rfl
@[simp] theorem setLines_op (v : Bool) : (setLines v s).op = s.op := rfl
@[simp] theorem setLines_ah (v : Bool) : (setLines v s).ah = s.ah := rfl
@[simp] theorem setLines_al (v : Bool) : (setLines v s).al = s.al := rfl
@[simp] theorem setLines_lv (v : Bool) : (setLines v s).lv = s.lv := rfl
@[simp] theorem setLines_rsize (v : Bool) : (setLines v s).rsize = s.rsize := rfl
@[simp] theorem setLines_txbuf (v : Bool) : (setLines v s).txbuf = s.txbuf := rfl
@[simp] theorem setLines_rbuf (v : Bool) : (setLines v s).rbuf = s.rbuf := rfl
@[simp] theorem setLines_csum (v : Bool) : (setLines v s).csum = s.csum := rfl
@[simp] theorem setLines_brk (v : Bool) : (setLines v s).brk = v := rfl
@[simp] theorem setLines_ctl (v : Bool) : (setLines v s).ctl = v := rfl
@[simp] theorem setLines_rxq (v : Bool) : (setLines v s).rxq = s.rxq := rfl
@[simp] theorem setLines_tx (v : Bool) : (setLines v s).tx = s.tx := rfl
@[simp] theorem setLines_result (v : Bool) : (setLines v s).result = s.result := rfl
@[simp] theorem setLines_busy (v : Bool) : (setLines v s).busy = s.busy := rfl
@[simp] theorem setLines_phase (v : Bool) : (setLines v s).phase = s.phase := rfl
@[simp] theorem setLines_idx (v : Bool) : (setLines v s).idx = s.idx := rfl
@[simp] theorem setLines_cfg (v : Bool) : (setLines v s).cfg = s.cfg := rfl
@[simp] theorem setLines_reply (v : Bool) : (setLines v s).reply = s.reply := rfl
@[simp] theorem setLines_inputs (v : Bool) : (setLines v s).inputs = s.inputs := rfl
@[simp] theorem setLines_env (v : Bool) : (setLines v s).env = s.env := rfl
@[simp] theorem setLines_freeClock (v : Bool) : (setLines v s).freeClock = s.freeClock := rfl

@[simp] theorem emitLineReset_acc : (emitLineReset s).acc = s.acc := rfl
@[simp] theorem emitLineReset_syncState : (emitLineReset s).syncState = s.syncState := rfl
@[simp] theorem emitLineReset_op : (emitLineReset s).op = s.op := rfl
@[simp] theorem emitLineReset_ah : (emitLineReset s).ah = s.ah := rfl
@[simp] theorem emitLineReset_al : (emitLineReset s).al = s.al := rfl
@[simp] theorem emitLineReset_lv : (emitLineReset s).lv = s.lv := rfl
@[simp] theorem emitLineReset_rsize : (emitLineReset s).rsize = s.rsize := rfl
@[simp] theorem emitLineReset_txbuf : (emitLineReset s).txbuf = s.txbuf := rfl
@[simp] theorem emitLineReset_rbuf : (emitLineReset s).rbuf = s.rbuf := rfl
@[simp] theorem emitLineReset_csum : (emitLineReset s).csum = s.csum := rfl
@[simp] theorem emitLineReset_brk : (emitLineReset s).brk = s.brk := rfl
@[simp] theorem emitLineReset_ctl : (emitLineReset s).ctl = s.ctl := rfl
@[simp] theorem emitLineReset_rxq : (emitLineReset s).rxq = s.rxq := rfl
@[simp] theorem emitLineReset_tx : (emitLineReset s).tx = s.tx ++ [.lineReset] := rfl
@[simp] theorem emitLineReset_result : (emitLineReset s).result = s.result := rfl
@[simp] theorem emitLineReset_busy : (emitLineReset s).busy = s.busy := rfl
@[simp] theorem emitLineReset_phase : (emitLineReset s).phase = s.phase := rfl
@[simp] theorem emitLineReset_idx : (emitLineReset s).idx = s.idx := rfl
@[simp] theorem emitLineReset_cfg : (emitLineReset s).cfg = s.cfg := rfl
@[simp] theorem emitLineReset_reply : (emitLineReset s).reply = s.reply := rfl
@[simp] theorem emitLineReset_inputs : (emitLineReset s).inputs = s.inputs := rfl
@[simp] theorem emitLineReset_env : (emitLineReset s).env = s.env := rfl
@[simp] theorem emitLineReset_freeClock : (emitLineReset s).freeClock = s.freeClock := rfl

@[simp] theorem setRbuf_acc (l : List Byte) : (setRbuf l s).acc = s.acc := rfl
@[simp] theorem setRbuf_syncState (l : List Byte) : (setRbuf l s).syncState = s.syncState := rfl
@[simp] theorem setRbuf_op (l : List Byte) : (setRbuf l s).op = s.op := rfl
@[simp] theorem setRbuf_ah (l : List Byte) : (setRbuf l s).ah = s.ah := rfl
@[simp] theorem setRbuf_al (l : List Byte) : (setRbuf l s).al = s.al := rfl
@[simp] theorem setRbuf_lv (l : List Byte) : (setRbuf l s).lv = s.lv := rfl
@[simp] theorem setRbuf_rsize (l : List Byte) : (setRbuf l s).rsize = s.rsize := rfl
@[simp] theorem setRbuf_txbuf (l : List Byte) : (setRbuf l s).txbuf = s.txbuf := rfl
@[simp] theorem setRbuf_rbuf (l : List Byte) : (setRbuf l s).rbuf = l := rfl
@[simp] theorem setRbuf_csum (l : List Byte) : (setRbuf l s).csum = s.csum := rfl
@[simp] theorem setRbuf_brk (l : List Byte) : (setRbuf l s).brk = s.brk := rfl
@[simp] theorem setRbuf_ctl (l : List Byte) : (setRbuf l s).ctl = s.ctl := rfl
@[simp] theorem setRbuf_rxq (l : List Byte) : (setRbuf l s).rxq = s.rxq := rfl
@[simp] theorem setRbuf_tx (l : List Byte) : (setRbuf l s).tx = s.tx := rfl
@[simp] theorem setRbuf_result (l : List Byte) : (setRbuf l s).result = s.result := rfl
@[simp] theorem setRbuf_busy (l : List Byte) : (setRbuf l s).busy = s.busy := rfl
@[simp] theorem setRbuf_phase (l : List Byte) : (setRbuf l s).phase = s.phase := rfl
@[simp] theorem setRbuf_idx (l : List Byte) : (setRbuf l s).idx = s.idx := rfl
@[simp] theorem setRbuf_cfg (l : List Byte) : (setRbuf l s).cfg = s.cfg := rfl
@[simp] theorem setRbuf_reply (l : List Byte) : (setRbuf l s).reply = s.reply := rfl
@[simp] theorem setRbuf_inputs (l : List Byte) : (setRbuf l s).inputs = s.inputs := rfl
@[simp] theorem setRbuf_env (l : List Byte) : (setRbuf l s).env = s.env := rfl
@[simp] theorem setRbuf_freeClock (l : List Byte) : (setRbuf l s).freeClock = s.freeClock := rfl

@[simp] theorem setSync_acc (v : SyncState) : (setSync v s).acc = s.acc := rfl
@[simp] theorem setSync_syncState (v : SyncState) : (setSync v s).syncState = v := rfl
@[simp] theorem setSync_op (v : SyncState) : (setSync v s).op = s.op := rfl
@[simp] theorem setSync_ah (v : SyncState) : (setSync v s).ah = s.ah := rfl
@[simp] theorem setSync_al (v : SyncState) : (setSync v s).al = s.al := rfl
@[simp] theorem setSync_lv (v : SyncState) : (setSync v s).lv = s.lv := rfl
@[simp] theorem setSync_rsize (v : SyncState) : (setSync v s).rsize = s.rsize := rfl
@[simp] theorem setSync_txbuf (v : SyncState) : (setSync v s).txbuf = s.txbuf := rfl
@[simp] theorem setSync_rbuf (v : SyncState) : (setSync v s).rbuf = s.rbuf := rfl
@[simp] theorem setSync_csum (v : SyncState) : (setSync v s).csum = s.csum := rfl
@[simp] theorem setSync_brk (v : SyncState) : (setSync v s).brk = s.brk := rfl
@[simp] theorem setSync_ctl (v : SyncState) : (setSync v s).ctl = s.ctl := rfl
@[simp] theorem setSync_rxq (v : SyncState) : (setSync v s).rxq = s.rxq := rfl
@[simp] theorem setSync_tx (v : SyncState) : (setSync v s).tx = s.tx := rfl
@[simp] theorem setSync_result (v : SyncState) : (setSync v s).result = s.result := rfl
@[simp] theorem setSync_busy (v : SyncState) : (setSync v s).busy = s.busy := rfl
@[simp] theorem setSync_phase (v : SyncState) : (setSync v s).phase = s.phase := rfl
@[simp] theorem setSync_idx (v : SyncState) : (setSync v s).idx = s.idx := rfl
@[simp] theorem setSync_cfg (v : SyncState) : (setSync v s).cfg = s.cfg := rfl
@[simp] theorem setSync_reply (v : SyncState) : (setSync v s).reply = s.reply := rfl
@[simp] theorem setSync_inputs (v : SyncState) : (setSync v s).inputs = s.inputs := rfl
@[simp] theorem setSync_env (v : SyncState) : (setSync v s).env = s.env := rfl
@[simp] theorem setSync_freeClock (v : SyncState) : (setSync v s).freeClock = s.freeClock := rfl

@[simp] theorem setAcc_acc (a : Acc) : (setAcc a s).acc = a := rfl
@[simp] theorem setAcc_syncState (a : Acc) : (setAcc a s).syncState = s.syncState := rfl
@[simp] theorem setAcc_op (a : Acc) : (setAcc a s).op = s.op := rfl
@[simp] theorem setAcc_ah (a : Acc) : (setAcc a s).ah = s.ah := rfl
@[simp] theorem setAcc_al (a : Acc) : (setAcc a s).al = s.al := rfl
@[simp] theorem setAcc_lv (a : Acc) : (setAcc a s).lv = s.lv := rfl
@[simp] theorem setAcc_rsize (a : Acc) : (setAcc a s).rsize = s.rsize := rfl
@[simp] theorem setAcc_txbuf (a : Acc) : (setAcc a s).txbuf = s.txbuf := rfl
@[simp] theorem setAcc_rbuf (a : Acc) : (setAcc a s).rbuf = s.rbuf := rfl
@[simp] theorem setAcc_csum (a : Acc) : (setAcc a s).csum = s.csum := rfl
@[simp] theorem setAcc_brk (a : Acc) : (setAcc a s).brk = s.brk := rfl
@[simp] theorem setAcc_ctl (a : Acc) : (setAcc a s).ctl = s.ctl := rfl
@[simp] theorem setAcc_rxq (a : Acc) : (setAcc a s).rxq = s.rxq := rfl
@[simp] theorem setAcc_tx (a : Acc) : (setAcc a s).tx = s.tx := rfl
@[simp] theorem setAcc_result (a : Acc) : (setAcc a s).result = s.result := rfl
@[simp] theorem setAcc_busy (a : Acc) : (setAcc a s).busy = s.busy := rfl
@[simp] theorem setAcc_phase (a : Acc) : (setAcc a s).phase = s.phase := rfl
@[simp] theorem setAcc_idx (a : Acc) : (setAcc a s).idx = s.idx := rfl
@[simp] theorem setAcc_cfg (a : Acc) : (setAcc a s).cfg = s.cfg := rfl
@[simp] theorem setAcc_reply (a : Acc) : (setAcc a s).reply = s.reply := rfl
@[simp] theorem setAcc_inputs (a : Acc) : (setAcc a s).inputs = s.inputs := rfl
@[simp] theorem setAcc_env (a : Acc) : (setAcc a s).env = s.env := rfl
@[simp] theorem setAcc_freeClock (a : Acc) : (setAcc a s).freeClock = s.freeClock := rfl

@[simp] theorem setSeq_acc (p : Phase) (k : Nat) : (setSeq p k s).acc = s.acc := rfl
@[simp] theorem setSeq_syncState (p : Phase) (k : Nat) : (setSeq p k s).syncState = s.syncState := rfl
@[simp] theorem setSeq_op (p : Phase) (k : Nat) : (setSeq p k s).op = s.op := rfl
@[simp] theorem setSeq_ah (p : Phase) (k : Nat) : (setSeq p k s).ah = s.ah := rfl
@[simp] theorem setSeq_al (p : Phase) (k : Nat) : (setSeq p k s).al = s.al := rfl
@[simp] theorem setSeq_lv (p : Phase) (k : Nat) : (setSeq p k s).lv = s.lv := rfl
@[simp] theorem setSeq_rsize (p : Phase) (k : Nat) : (setSeq p k s).rsize = s.rsize := rfl
@[simp] theorem setSeq_txbuf (p : Phase) (k : Nat) : (setSeq p k s).txbuf = s.txbuf := rfl
@[simp] theorem setSeq_rbuf (p : Phase) (k : Nat) : (setSeq p k s).rbuf = s.rbuf := rfl
@[simp] theorem setSeq_csum (p : Phase) (k : Nat) : (setSeq p k s).csum = s.csum := rfl
@[simp] theorem setSeq_brk (p : Phase) (k : Nat) : (setSeq p k s).brk = s.brk := rfl
@[simp] theorem setSeq_ctl (p : Phase) (k : Nat) : (setSeq p k s).ctl = s.ctl := rfl
@[simp] theorem setSeq_rxq (p : Phase) (k : Nat) : (setSeq p k s).rxq = s.rxq := rfl
@[simp] theorem setSeq_tx (p : Phase) (k : Nat) : (setSeq p k s).tx = s.tx := rfl
@[simp] theorem setSeq_result (p : Phase) (k : Nat) : (setSeq p k s).result = s.result := rfl
@[simp] theorem setSeq_busy (p : Phase) (k : Nat) : (setSeq p k s).busy = s.busy := rfl
@[simp] theorem setSeq_phase (p : Phase) (k : Nat) : (setSeq p k s).phase = p := rfl
@[simp] theorem setSeq_idx (p : Phase) (k : Nat) : (setSeq p k s).idx = k := rfl
@[simp] theorem setSeq_cfg (p : Phase) (k : Nat) : (setSeq p k s).cfg = s.cfg := rfl
@[simp] theorem setSeq_reply (p : Phase) (k : Nat) : (setSeq p k s).reply = s.reply := rfl
@[simp] theorem setSeq_inputs (p : Phase) (k : Nat) : (setSeq p k s).inputs = s.inputs := rfl
@[simp] theorem setSeq_env (p : Phase) (k : Nat) : (setSeq p k s).env = s.env := rfl
@[simp] theorem setSeq_freeClock (p : Phase) (k : Nat) : (setSeq p k s).freeClock = s.freeClock := rfl

@[simp] theorem answer_acc (r : Reply) : (answer r s).acc = s.acc := rfl
@[simp] theorem answer_syncState (r : Reply) : (answer r s).syncState = s.syncState := rfl
@[simp] theorem answer_op (r : Reply) : (answer r s).op = s.op := rfl
@[simp] theorem answer_ah (r : Reply) : (answer r s).ah = s.ah := rfl
@[simp] theorem answer_al (r : Reply) : (answer r s).al = s.al := rfl
@[simp] theorem answer_lv (r : Reply) : (answer r s).lv = s.lv := rfl
@[simp] theorem answer_rsize (r : Reply) : (answer r s).rsize = s.rsize := rfl
@[simp] theorem answer_txbuf (r : Reply) : (answer r s).txbuf = s.txbuf := rfl
@[simp] theorem answer_rbuf (r : Reply) : (answer r s).rbuf = s.rbuf := rfl
@[simp] theorem answer_csum (r : Reply) : (answer r s).csum = s.csum := rfl
@[simp] theorem answer_brk (r : Reply) : (answer r s).brk = s.brk := rfl
@[simp] theorem answer_ctl (r : Reply) : (answer r s).ctl = s.ctl := rfl
@[simp] theorem answer_rxq (r : Reply) : (answer r s).rxq = s.rxq := rfl
@[simp] theorem answer_tx (r : Reply) : (answer r s).tx = s.tx := rfl
@[simp] theorem answer_result (r : Reply) : (answer r s).result = s.result := rfl
@[simp] theorem answer_busy (r : Reply) : (answer r s).busy = s.busy := rfl
@[simp] theorem answer_phase (r : Reply) : (answer r s).phase = s.phase := rfl
@[simp] theorem answer_idx (r : Reply) : (answer r s).idx = s.idx := rfl
@[simp] theorem answer_cfg (r : Reply) : (answer r s).cfg = s.cfg := rfl
@[simp] theorem answer_reply (r : Reply) : (answer r s).reply = r := rfl
@[simp] theorem answer_inputs (r : Reply) : (answer r s).inputs = s.inputs := rfl
@[simp] theorem answer_env (r : Reply) : (answer r s).env = s.env := rfl
@[simp] theorem answer_freeClock (r : Reply) : (answer r s).freeClock = s.freeClock := rfl

@[simp] theorem retire_acc (r : Result) : (retire r s).acc = s.acc := rfl
@[simp] theorem retire_syncState (r : Result) : (retire r s).syncState = s.syncState := rfl
@[simp] theorem retire_op (r : Result) : (retire r s).op = s.op := rfl
@[simp] theorem retire_ah (r : Result) : (retire r s).ah = s.ah := rfl
@[simp] theorem retire_al (r : Result) : (retire r s).al = s.al := rfl
@[simp] theorem retire_lv (r : Result) : (retire r s).lv = s.lv := rfl
@[simp] theorem retire_rsize (r : Result) : (retire r s).rsize = s.rsize := rfl
@[simp] theorem retire_txbuf (r : Result) : (retire r s).txbuf = (Config.freeHidden s.freeClock).txbuf.take s.cfg.txbufMax := rfl
@[simp] theorem retire_rbuf (r : Result) : (retire r s).rbuf = s.rbuf := rfl
@[simp] theorem retire_csum (r : Result) : (retire r s).csum = (Config.freeHidden s.freeClock).csum := rfl
@[simp] theorem retire_brk (r : Result) : (retire r s).brk = s.brk := rfl
@[simp] theorem retire_ctl (r : Result) : (retire r s).ctl = s.ctl := rfl
@[simp] theorem retire_rxq (r : Result) : (retire r s).rxq = s.rxq := rfl
@[simp] theorem retire_tx (r : Result) : (retire r s).tx = s.tx := rfl
@[simp] theorem retire_result (r : Result) : (retire r s).result = r := rfl
@[simp] theorem retire_busy (r : Result) : (retire r s).busy = false := rfl
@[simp] theorem retire_phase (r : Result) : (retire r s).phase = (Config.freeHidden s.freeClock).phase := rfl
@[simp] theorem retire_idx (r : Result) : (retire r s).idx = (Config.freeHidden s.freeClock).idx := rfl
@[simp] theorem retire_cfg (r : Result) : (retire r s).cfg = s.cfg := rfl
@[simp] theorem retire_reply (r : Result) : (retire r s).reply = .result r := rfl
@[simp] theorem retire_inputs (r : Result) : (retire r s).inputs = s.inputs := rfl
@[simp] theorem retire_env (r : Result) : (retire r s).env = s.env := rfl
@[simp] theorem retire_freeClock (r : Result) : (retire r s).freeClock = s.freeClock + 1 := rfl

@[simp] theorem arrive_acc (l : List Byte) : (arrive l s).acc = s.acc := rfl
@[simp] theorem arrive_syncState (l : List Byte) : (arrive l s).syncState = s.syncState := rfl
@[simp] theorem arrive_op (l : List Byte) : (arrive l s).op = s.op := rfl
@[simp] theorem arrive_ah (l : List Byte) : (arrive l s).ah = s.ah := rfl
@[simp] theorem arrive_al (l : List Byte) : (arrive l s).al = s.al := rfl
@[simp] theorem arrive_lv (l : List Byte) : (arrive l s).lv = s.lv := rfl
@[simp] theorem arrive_rsize (l : List Byte) : (arrive l s).rsize = s.rsize := rfl
@[simp] theorem arrive_txbuf (l : List Byte) : (arrive l s).txbuf = s.txbuf := rfl
@[simp] theorem arrive_rbuf (l : List Byte) : (arrive l s).rbuf = s.rbuf := rfl
@[simp] theorem arrive_csum (l : List Byte) : (arrive l s).csum = s.csum := rfl
@[simp] theorem arrive_brk (l : List Byte) : (arrive l s).brk = s.brk := rfl
@[simp] theorem arrive_ctl (l : List Byte) : (arrive l s).ctl = s.ctl := rfl
@[simp] theorem arrive_rxq (l : List Byte) : (arrive l s).rxq = s.rxq ++ l.map rev8 := rfl
@[simp] theorem arrive_tx (l : List Byte) : (arrive l s).tx = s.tx := rfl
@[simp] theorem arrive_result (l : List Byte) : (arrive l s).result = s.result := rfl
@[simp] theorem arrive_busy (l : List Byte) : (arrive l s).busy = s.busy := rfl
@[simp] theorem arrive_phase (l : List Byte) : (arrive l s).phase = s.phase := rfl
@[simp] theorem arrive_idx (l : List Byte) : (arrive l s).idx = s.idx := rfl
@[simp] theorem arrive_cfg (l : List Byte) : (arrive l s).cfg = s.cfg := rfl
@[simp] theorem arrive_reply (l : List Byte) : (arrive l s).reply = s.reply := rfl
@[simp] theorem arrive_inputs (l : List Byte) : (arrive l s).inputs = s.inputs := rfl
@[simp] theorem arrive_env (l : List Byte) : (arrive l s).env = s.env := rfl
@[simp] theorem arrive_freeClock (l : List Byte) : (arrive l s).freeClock = s.freeClock := rfl

end Sys2Proof.Machine
end

