-- ==== Sys2Proof/Laws/Ops.lean ====
section
/-!
SUPPORT. One spec lemma per shared operation: what the frame builder, Send, Recv and the receive step can do.
-/

namespace Sys2Proof.Machine

/-! ### The frame builder -/

theorem foldl_placeByte (l : List Byte) (s : State) :
    l.foldl placeByte s = setFrame (s.txbuf ++ l) (s.csum + csum16 l) s := by
  induction l generalizing s with
  | nil => simp [csum16, setFrame]
  | cons b l ih =>
    rw [List.foldl_cons, ih]
    simp [placeByte, csumAdd, csum16_cons, BitVec.add_assoc, setFrame]

/-- A build leaves the bytes in TXBUF and their sum in CSUM (R15). -/
theorem placeBytes_eq (l : List Byte) (s : State) :
    placeBytes l s = setFrame l (csum16 l) s := by
  rw [placeBytes, foldl_placeByte]
  simp [setFrame]

/-- A frame build leaves FRAME(body) in TXBUF (R57, R79). -/
theorem buildFrame_eq (body : List Byte) (s : State) :
    buildFrame body s = setFrame (frame body) (csum16 body) s := by
  rw [buildFrame, placeBytes_eq]
  rfl

/-! ### Frames of Send and Recv -/

/-- `t` agrees with `s` but for the channel and the model's environment fields. -/
def SameButChannel (s t : State) : Prop :=
  ∃ q x e c, t = { s with rxq := q, tx := x, env := e, freeClock := c }

theorem SameButChannel.trans {s t u : State} (h : SameButChannel s t) (k : SameButChannel t u) :
    SameButChannel s u := by
  obtain ⟨_, _, _, _, rfl⟩ := h
  obtain ⟨_, _, _, _, rfl⟩ := k
  exact ⟨_, _, _, _, rfl⟩

theorem envAct_same (s : State) : SameButChannel s (envAct s) := ⟨_, _, _, _, rfl⟩

theorem chanFlush_same (s : State) : SameButChannel s (chanFlush s) := ⟨_, _, _, _, rfl⟩

theorem chanTxByte_same (w : Wire) (s : State) : SameButChannel s (chanTxByte w s) := ⟨_, _, _, _, rfl⟩

theorem chanRxByte_same (s : State) : SameButChannel s (chanRxByte s).2 := by
  unfold chanRxByte
  split <;> exact ⟨_, _, _, _, rfl⟩

/-- A read does not transmit. -/
@[simp] theorem chanRxByte_tx (s : State) : (chanRxByte s).2.tx = s.tx := by
  unfold chanRxByte
  split <;> rfl

/-- ChanRxByte on a queue that is not empty: the head, whatever the environment does (R33). -/
theorem chanRxByte_of_cons {s : State} {w : Wire} {q : List Wire} (h : s.rxq = w :: q) :
    chanRxByte s = (some w, setRxq (q ++ (envMove s).arrive) (envAct s)) := by
  simp [chanRxByte, h]

theorem sendBytes_same (l : List Byte) (s : State) : SameButChannel s (sendBytes l s).2 := by
  induction l generalizing s with
  | nil => exact ⟨_, _, _, _, rfl⟩
  | cons b l ih =>
    simp only [sendBytes]
    split
    · exact envAct_same s
    · exact (envAct_same s).trans ((chanTxByte_same _ _).trans (ih _))

theorem send_same (l : List Byte) (s : State) : SameButChannel s (send l s).2 :=
  (chanFlush_same s).trans (sendBytes_same l _)

theorem recv_same (n : Nat) (s : State) : SameButChannel s (recv n s).2 := by
  induction n generalizing s with
  | zero => exact ⟨_, _, _, _, rfl⟩
  | succ n ih =>
    have hs := chanRxByte_same s
    simp only [recv]
    split
    · rename_i t h; rw [h] at hs; exact hs
    · rename_i w t h; rw [h] at hs; exact hs.trans (ih t)

/-- Recv does not transmit (R37). -/
@[simp] theorem recv_tx (n : Nat) (s : State) : (recv n s).2.tx = s.tx := by
  induction n generalizing s with
  | zero => rfl
  | succ n ih =>
    have hs := chanRxByte_tx s
    simp only [recv]
    split
    · rename_i t h; rw [h] at hs; exact hs
    · rename_i w t h; rw [h] at hs; exact (ih t).trans hs

/-- Recv(n) returns at most n bytes (R35). -/
theorem recv_length_le (n : Nat) (s : State) : (recv n s).1.length ≤ n := by
  induction n generalizing s with
  | zero => simp [recv]
  | succ n ih =>
    simp only [recv]
    split
    · simp
    · simpa using ih _

/-- Recv(n) on a queue that holds n bytes: exactly those, whatever the environment does (R35, R46). -/
theorem recv_of_le {n : Nat} {s : State} (h : n ≤ s.rxq.length) :
    (recv n s).1 = s.rxq.take n ∧ ∃ new, (recv n s).2.rxq = s.rxq.drop n ++ new := by
  induction n generalizing s with
  | zero => simp [recv]
  | succ n ih =>
    obtain ⟨w, q, hq⟩ : ∃ w q, s.rxq = w :: q := by
      cases hq : s.rxq with
      | nil => simp [hq] at h
      | cons w q => exact ⟨w, q, rfl⟩
    simp only [recv, chanRxByte_of_cons hq, hq]
    have hn : n ≤ q.length := by simpa [hq] using h
    obtain ⟨h1, new, h2⟩ :=
      ih (s := setRxq (q ++ (envMove s).arrive) (envAct s))
        (by simp only [setRxq_rxq, List.length_append]; omega)
    refine ⟨?_, ((envMove s).arrive ++ new), ?_⟩
    · simp [h1, List.take_append_of_le_length hn]
    · simp [h2, List.drop_append_of_le_length hn]

/-- Send transmits a prefix of its list, reversed and in order; it ended TxOk exactly if the prefix is the whole list, which
it is where no transmission can fail (R34). -/
theorem sendBytes_tx (l : List Byte) (s : State) :
    ∃ k, k ≤ l.length ∧ (sendBytes l s).2.tx = s.tx ++ wireImage (l.take k) ∧
      ((sendBytes l s).1 = true ↔ k = l.length) ∧ (s.cfg.txCanFail = false → k = l.length) := by
  induction l generalizing s with
  | nil => exact ⟨0, by simp [sendBytes, wireImage]⟩
  | cons b l ih =>
    simp only [sendBytes]
    split
    · rename_i h
      exact ⟨0, by simp, by simp [wireImage], by simp, by simp at h; simp [h.1]⟩
    · obtain ⟨k, h1, h2, h3, h4⟩ := ih (chanTxByte (rev8 b) (envAct s))
      refine ⟨k + 1, by simpa using h1, ?_, by simpa using h3, by simpa using h4⟩
      rw [h2]
      simp [wireImage]

theorem send_tx (l : List Byte) (s : State) :
    ∃ k, k ≤ l.length ∧ (send l s).2.tx = s.tx ++ wireImage (l.take k) ∧
      ((send l s).1 = true ↔ k = l.length) ∧ (s.cfg.txCanFail = false → k = l.length) :=
  sendBytes_tx l (chanFlush s)

/-! ### The receive step -/

/-- What the lines of RX after its first byte leave (R88). -/
theorem rxRest_eq (w : Wire) (m : Nat) (s : State) :
    rxRest w m s =
      (if (recv m (setRbuf [rev8 w] s)).1.length < m then .failTransport .rxShort else .ok,
        setRbuf (rev8 w :: (recv m (setRbuf [rev8 w] s)).1.map rev8) (recv m (setRbuf [rev8 w] s)).2) := by
  unfold rxRest
  dsimp only
  split <;> rfl

/-- `t` agrees with `s` but for RBUF, the channel and the model's environment fields. -/
def SameButReceive (s t : State) : Prop :=
  ∃ l q x e c, t = { s with rbuf := l, rxq := q, tx := x, env := e, freeClock := c }

theorem SameButReceive.of_channel {l : List Byte} {s t u : State} (h : SameButChannel (setRbuf l s) t)
    (k : SameButReceive t u) : SameButReceive s u := by
  obtain ⟨_, _, _, _, rfl⟩ := h
  obtain ⟨_, _, _, _, _, rfl⟩ := k
  exact ⟨_, _, _, _, _, rfl⟩

theorem rxRest_same (w : Wire) (m : Nat) (s : State) : SameButReceive s (rxRest w m s).2 := by
  rw [rxRest_eq]
  obtain ⟨_, _, _, _, h⟩ := recv_same m (setRbuf [rev8 w] s)
  rw [h]
  exact ⟨_, _, _, _, _, rfl⟩

/-- The receive step writes RBUF and reads the channel, and touches nothing else (R88). -/
theorem rxBody_same (n : Nat) (s : State) : SameButReceive s (rxBody n s).2 := by
  have hs := chanRxByte_same (setRbuf [] s)
  unfold rxBody
  split
  · rename_i t h
    rw [h] at hs
    obtain ⟨_, _, _, _, rfl⟩ := hs
    exact ⟨_, _, _, _, _, rfl⟩
  · rename_i w t h
    rw [h] at hs
    exact .of_channel hs (rxRest_same _ _ _)

/-- The receive step does not transmit (R88). -/
@[simp] theorem rxBody_tx (n : Nat) (s : State) : (rxBody n s).2.tx = s.tx := by
  have hs := chanRxByte_tx (setRbuf [] s)
  unfold rxBody
  split
  · rename_i t h; rw [h] at hs; exact hs
  · rename_i w t h; rw [h] at hs; rw [rxRest_eq]; simpa using hs

/-- How the receive step ends: empty, short, or with every byte it was due (R88, R110). -/
theorem rxBody_cases (n : Nat) (s : State) :
    ((rxBody n s).1 = .failTransport .rxEmpty ∧ (rxBody n s).2.rbuf = []) ∨
    ∃ (w : Wire) (got : List Wire), (rxBody n s).2.rbuf = rev8 w :: got.map rev8 ∧ got.length ≤ restLen s.cfg n w ∧
      (rxBody n s).1 = if got.length < restLen s.cfg n w then .failTransport .rxShort else .ok := by
  have hs := chanRxByte_same (setRbuf [] s)
  unfold rxBody
  split
  · rename_i t h
    rw [h] at hs
    obtain ⟨_, _, _, _, rfl⟩ := hs
    exact Or.inl ⟨rfl, rfl⟩
  · rename_i w t h
    rw [h] at hs
    obtain ⟨_, _, _, _, rfl⟩ := hs
    rw [rxRest_eq]
    exact Or.inr ⟨w, _, rfl, recv_length_le _ _, rfl⟩

/-- The receive step on a queue that holds all it is due: exactly those bytes, whatever the environment does (R88, R46). -/
theorem rxBody_of_queue {n : Nat} {s : State} {w : Wire} {q : List Wire} (h : s.rxq = w :: q)
    (hq : restLen s.cfg n w ≤ q.length) :
    (rxBody n s).1 = .ok ∧ (rxBody n s).2.rbuf = (w :: q.take (restLen s.cfg n w)).map rev8 ∧
      ∃ new, (rxBody n s).2.rxq = q.drop (restLen s.cfg n w) ++ new := by
  have hc : chanRxByte (setRbuf [] s) =
      (some w, setRxq (q ++ (envMove (setRbuf [] s)).arrive) (envAct (setRbuf [] s))) :=
    chanRxByte_of_cons (s := setRbuf [] s) h
  have hn : restLen s.cfg n w ≤
      (setRbuf [rev8 w] (setRxq (q ++ (envMove (setRbuf [] s)).arrive) (envAct (setRbuf [] s)))).rxq.length := by
    simp only [setRbuf_rxq, setRxq_rxq, List.length_append]; omega
  obtain ⟨h1, new, h2⟩ := recv_of_le hn
  unfold rxBody
  simp only [hc, rxRest_eq, setRxq_cfg, envAct_cfg, setRbuf_cfg]
  refine ⟨?_, ?_, ?_⟩
  · rw [h1]; simp only [setRbuf_rxq, setRxq_rxq, List.length_take, List.length_append]
    rw [if_neg (by omega)]
  · rw [setRbuf_rbuf, h1]
    simp [List.take_append_of_le_length hq]
  · rw [setRbuf_rxq, h2]
    exact ⟨(envMove (setRbuf [] s)).arrive ++ new, by simp [List.drop_append_of_le_length hq]⟩

end Sys2Proof.Machine
end

