-- ==== Sys2Proof/Laws/Perform.lean ====
section
/-!
SUPPORT. What a request can do: admission, the operand registers, how each operation runs, and what each run leaves.
-/

namespace Sys2Proof.Machine

/-- The pseudocode of each operation (R86 to R89, R97 to R102). -/
def runOf : OpKind → State → Result × State
  | .sync => runSync
  | .tx => runTx
  | .rx => runRx
  | .idle => runIdle
  | .read => runRead
  | .write => runWrite
  | .calibrate => runCalibrate
  | .configure => runConfigure
  | .snapshot => runSnapshot
  | .keepalive => runKeepalive

/-- Every host operation is admission and then its pseudocode (R85). -/
theorem exec_request {i : Instr} {r : Request} (h : requestOf i = some r) (s : State) :
    exec i s = .next (perform r (runOf r.op) s) := by
  cases i <;> simp only [requestOf, Option.some.injEq, reduceCtorEq] at h <;> subst h <;> rfl

/-! ### Admission (R85) -/

theorem admission_eq_none {r : Request} {s : State} :
    admission r s = none ↔
      s.busy = false ∧ badOperand s.cfg r = false ∧ (gated r.op = true → s.syncState = .synced) := by
  unfold admission
  cases s.busy <;> cases badOperand s.cfg r <;> cases gated r.op <;> cases s.syncState <;> simp

theorem admitted_iff {i : Instr} {r : Request} (h : requestOf i = some r) (s : State) :
    admitted i s = true ↔ admission r s = none := by
  simp [admitted, h]

/-- A request that fails a check is not admitted (R85). -/
theorem admitted_eq_false {i : Instr} {r : Request} {x : RefuseReason} {s : State} (h : requestOf i = some r)
    (ha : admission r s = some x) : admitted i s = false := by
  rw [← Bool.not_eq_true, admitted_iff h, ha]
  simp

theorem exists_request {i : Instr} {s : State} (h : admitted i s = true) :
    ∃ r, requestOf i = some r ∧ admission r s = none := by
  unfold admitted at h
  split at h
  · exact ⟨_, ‹_›, by simpa using h⟩
  · simp at h

theorem perform_of_none {r : Request} {s : State} (h : admission r s = none) (run : State → Result × State) :
    perform r run s = retire (run (accept r s)).1 (run (accept r s)).2 := by
  simp [perform, h]

theorem perform_of_some {r : Request} {s : State} {x : RefuseReason} (h : admission r s = some x)
    (run : State → Result × State) : perform r run s = refuse x s := by
  simp [perform, h]

/-- A refusal changes RESULT and the requester's answer at most (R85). -/
theorem refuse_same (x : RefuseReason) (s : State) :
    refuse x s = { s with
      result := if x = .busy then s.result else .refused x
      reply := .result (.refused x) } := by
  cases x <;> rfl

/-- Accepting a request writes the operand registers, TXBUF and BUSY at most (R12, R13, R85). -/
theorem accept_same (r : Request) (s : State) :
    ∃ a l v n x, accept r s =
      { s with op := r.op, ah := a, al := l, lv := v, rsize := n, txbuf := x, busy := true } := by
  unfold accept load
  split <;> exact ⟨_, _, _, _, _, rfl⟩

@[simp] theorem accept_op (r : Request) (s : State) : (accept r s).op = r.op := by
  unfold accept load; split <;> rfl
@[simp] theorem accept_acc (r : Request) (s : State) : (accept r s).acc = s.acc := by
  unfold accept load; split <;> rfl
@[simp] theorem accept_cfg (r : Request) (s : State) : (accept r s).cfg = s.cfg := by
  unfold accept load; split <;> rfl
@[simp] theorem accept_syncState (r : Request) (s : State) : (accept r s).syncState = s.syncState := by
  unfold accept load; split <;> rfl
@[simp] theorem accept_rbuf (r : Request) (s : State) : (accept r s).rbuf = s.rbuf := by
  unfold accept load; split <;> rfl
@[simp] theorem accept_rxq (r : Request) (s : State) : (accept r s).rxq = s.rxq := by
  unfold accept load; split <;> rfl
@[simp] theorem accept_tx (r : Request) (s : State) : (accept r s).tx = s.tx := by
  unfold accept load; split <;> rfl
@[simp] theorem accept_env (r : Request) (s : State) : (accept r s).env = s.env := by
  unfold accept load; split <;> rfl
@[simp] theorem accept_freeClock (r : Request) (s : State) : (accept r s).freeClock = s.freeClock := by
  unfold accept load; split <;> rfl
@[simp] theorem accept_busy (r : Request) (s : State) : (accept r s).busy = true := by
  unfold accept load; split <;> rfl

/-! ### The receive half of a command (R95) -/

/-- Xfer's receive half in one equation: what RX leaves, judged where RX got all it was due (R95, R96). -/
theorem xferReceive_eq {n : Nat} (hn : n ≠ 0) (s : State) :
    xferReceive n s =
      (if (rxBody n s).1 = .ok then judge (rxBody n s).2 else (rxBody n s).1, (rxBody n s).2) := by
  unfold xferReceive
  rw [if_neg hn]
  split
  · rename_i t h; rw [h]; rfl
  · rename_i r t hr h; rw [h]; simp only; rw [if_neg hr]

@[simp] theorem xferReceive_zero (s : State) : xferReceive 0 s = (.ok, s) := rfl

/-- Xfer in one equation (R95). -/
theorem xfer_eq (n : Nat) (s : State) :
    xfer n s =
      if (sendTxbuf s).1 then xferReceive n (sendTxbuf s).2 else (.failTransport .txFail, (sendTxbuf s).2) := by
  unfold xfer
  rcases sendTxbuf s with ⟨_ | _, t⟩ <;> rfl

/-- The receive half writes RBUF and reads the channel, and touches nothing else (R95). -/
theorem xferReceive_same (n : Nat) (s : State) : SameButReceive s (xferReceive n s).2 := by
  by_cases hn : n = 0
  · subst hn; exact ⟨_, _, _, _, _, rfl⟩
  · rw [xferReceive_eq hn]; exact rxBody_same n s

theorem SameButChannel.receive {s t u : State} (h : SameButChannel s t) (k : SameButReceive t u) :
    SameButReceive s u := by
  obtain ⟨_, _, _, _, rfl⟩ := h
  obtain ⟨_, _, _, _, _, rfl⟩ := k
  exact ⟨_, _, _, _, _, rfl⟩

theorem SameButChannel.toReceive {s t : State} (h : SameButChannel s t) : SameButReceive s t := by
  obtain ⟨_, _, _, _, rfl⟩ := h
  exact ⟨_, _, _, _, _, rfl⟩

/-- A round trip writes RBUF and the channel, and touches nothing else (R95). -/
theorem xfer_same (n : Nat) (s : State) : SameButReceive s (xfer n s).2 := by
  rw [xfer_eq]
  split
  · exact (send_same _ _).receive (xferReceive_same n _)
  · exact (send_same _ _).toReceive

/-- A round trip that reads nothing leaves RBUF (R95). -/
theorem xfer_zero_same (s : State) : SameButChannel s (xfer 0 s).2 := by
  rw [xfer_eq]
  split
  · exact send_same _ _
  · exact send_same _ _

/-- The receive half does not transmit (R37). -/
@[simp] theorem xferReceive_tx (n : Nat) (s : State) : (xferReceive n s).2.tx = s.tx := by
  by_cases hn : n = 0
  · subst hn; rfl
  · rw [xferReceive_eq hn]; exact rxBody_tx n s

/-! ### An operation as prepare, Send, conclude -/

/-- The lines of a sending operation before its Send. -/
def prepared (op : OpKind) (s : State) : State :=
  match op with
  | .sync => syncPrologue s
  | .tx | .rx => s
  | .idle => buildIdle s
  | .read => buildFrame (readBody s) s
  | .write => buildFrame (writeBody s) s
  | .calibrate => buildFrame (calibrateBody s) s
  | .configure => buildFrame (configureBody s) s
  | .snapshot => buildFrame (snapshotBody s) s
  | .keepalive => buildFrame (keepaliveBody s) s

/-- The lines of SYNC after its Send (R86). -/
def concludeSync (p : Sent × State) : Result × State :=
  if p.1 then
    match chanRxByte p.2 with
    | (none, u) => (.failTransport .rxEmpty, setSync .unsynced u)
    | (some w, u) => syncEcho w u
  else (.failTransport .txFail, setSync .unsynced p.2)

/-- The lines of a command after its Send (R95). -/
def concludeXfer (n : Nat) (p : Sent × State) : Result × State :=
  if p.1 then xferReceive n p.2 else (.failTransport .txFail, p.2)

/-- The lines of a sending operation after its Send; `a` is the counter before it. -/
def conclude (op : OpKind) (a : Acc) (n : Nat) (p : Sent × State) : Result × State :=
  match op with
  | .sync => concludeSync p
  | .tx | .rx => (if p.1 then .ok else .failTransport .txFail, p.2)
  | .idle => (if p.1 then .ok else .failTransport .txFail, setSync .unsynced p.2)
  | .read | .write | .configure | .keepalive => concludeXfer n p
  | .calibrate | .snapshot => advanceAcc a (concludeXfer n p)

theorem runSync_eq (s : State) : runSync s = concludeSync (sendTxbuf (syncPrologue s)) := by
  unfold runSync concludeSync
  rcases sendTxbuf (syncPrologue s) with ⟨_ | _, t⟩ <;> rfl

theorem runTx_eq (s : State) : runTx s = conclude .tx s.acc s.rsize (sendTxbuf s) := by
  unfold runTx conclude
  rcases sendTxbuf s with ⟨_ | _, t⟩ <;> rfl

theorem runIdle_eq (s : State) : runIdle s = conclude .idle s.acc s.rsize (sendTxbuf (buildIdle s)) := by
  unfold runIdle conclude
  rcases sendTxbuf (buildIdle s) with ⟨_ | _, t⟩ <;> rfl

theorem xfer_conclude (n : Nat) (s : State) : xfer n s = concludeXfer n (sendTxbuf s) := xfer_eq n s

/-- Every operation but RX is its lines before the Send, the Send, and its lines after it (R37). -/
theorem runOf_eq {op : OpKind} (h : op ≠ .rx) (s : State) :
    runOf op s = conclude op s.acc s.rsize (sendTxbuf (prepared op s)) := by
  cases op
  case rx => exact absurd rfl h
  case sync => exact runSync_eq s
  case tx => exact runTx_eq s
  case idle => exact runIdle_eq s
  case calibrate => exact congrArg (advanceAcc s.acc) (xfer_conclude _ _)
  case snapshot => exact congrArg (advanceAcc s.acc) (xfer_conclude _ _)
  all_goals exact xfer_conclude _ _

/-- The prologue of SYNC in one equation (R86). -/
theorem syncPrologue_eq (s : State) :
    syncPrologue s = { envAct s with
      tx := s.tx ++ [.lineReset], brk := false, ctl := false, rbuf := [],
      txbuf := syncBody, csum := csum16 syncBody,
      acc := if s.cfg.accReinitOnSync then .four else s.acc } := by
  unfold syncPrologue
  rw [placeBytes_eq]
  cases h : s.cfg.accReinitOnSync <;>
    simp [chanLineReset, h, setFrame, setRbuf, setAcc, setLines, emitLineReset]

/-- The lines before a command's Send put its frame in TXBUF and change nothing but TXBUF and CSUM. -/
theorem prepared_same {op : OpKind} (h : op ≠ .sync) (s : State) :
    ∃ x c, prepared op s = { s with txbuf := x, csum := c } := by
  cases op
  case sync => exact absurd rfl h
  case tx => exact ⟨_, _, rfl⟩
  case rx => exact ⟨_, _, rfl⟩
  case idle =>
    simp only [prepared, buildIdle, buildFrame_eq, placeBytes_eq]
    split <;> exact ⟨_, _, rfl⟩
  all_goals
    simp only [prepared, buildFrame_eq]
    exact ⟨_, _, rfl⟩

/-- What stands in TXBUF when a request's Send starts is the frame of its row (30_encoding.md). -/
theorem prepared_txbuf {i : Instr} {r : Request} (h : requestOf i = some r) (hr : r.op ≠ .rx) (s : State) :
    (prepared r.op (accept r s)).txbuf = transmitted i s := by
  cases i <;> simp only [requestOf, Option.some.injEq, reduceCtorEq] at h <;> subst h
  case sync => simp only [prepared, syncPrologue_eq]; rfl
  case idle =>
    simp only [prepared, buildIdle, buildFrame_eq, placeBytes_eq, transmitted, expand, accept_cfg]
    split <;> rfl
  case rx => exact absurd rfl hr
  case tx => rfl
  case flush => rfl
  all_goals
    simp only [prepared, buildFrame_eq]
    rfl

/-- Judge never reports a transport failure or a refusal (R96). -/
theorem judge_cases (s : State) :
    judge s = .ok ∨ judge s = .failProtocol .badSum ∨ judge s = .failProtocol .shortFrame ∨
      judge s = .failProtocol .badStatus := by
  unfold judge
  split
  · split <;> simp
  all_goals simp

/-- The results of the receive half (R95, R110). -/
theorem xferReceive_result (n : Nat) (s : State) :
    (xferReceive n s).1 ≠ .failTransport .txFail ∧ ∀ x, (xferReceive n s).1 ≠ .refused x := by
  by_cases hn : n = 0
  · subst hn; simp
  · rw [xferReceive_eq hn]
    rcases rxBody_cases n s with ⟨h, -⟩ | ⟨w, got, -, -, h⟩ <;> rw [h]
    · simp
    · have := judge_cases (rxBody n s).2
      split <;> split <;> simp_all
      all_goals rcases this with h | h | h | h <;> simp [h]

/-! ### How an operation ends -/

/-- How SYNC ends after its Send, for every environment (R86). -/
theorem concludeSync_spec (p : Sent × State) :
    (concludeSync p).2.tx = p.2.tx ∧ ((concludeSync p).1 = .failTransport .txFail ↔ p.1 = false) ∧
    (∀ x, (concludeSync p).1 ≠ .refused x) ∧
   (∃ l v, SameButChannel {p.2 with rbuf := l, syncState := v} (concludeSync p).2) ∧
   ((concludeSync p).2.syncState = .synced ↔ (concludeSync p).1 = .ok) ∧
   (p.2.rbuf = [] → (((concludeSync p).1 = .ok ∧ (concludeSync p).2.rbuf = [0xAA]) ∨
      ((concludeSync p).1 = .failProtocol .badEcho ∧ ∃ b, b ≠ 0xAA ∧ (concludeSync p).2.rbuf = [b]) ∨
      ((concludeSync p).1 = .failTransport .rxEmpty ∧ (concludeSync p).2.rbuf = []) ∨
      ((concludeSync p).1 = .failTransport .txFail ∧ (concludeSync p).2.rbuf = [] ∧ p.1 = false))) := by
  rcases p with ⟨_ | _, t⟩
  · simp only [concludeSync]
    exact ⟨rfl, by simp, by simp, ⟨t.rbuf, .unsynced, _, _, _, _, rfl⟩, by simp, by simp⟩
  · have hs := chanRxByte_same t
    have ht := chanRxByte_tx t
    simp only [concludeSync, if_true]
    split
    · rename_i u h; rw [h] at hs ht; obtain ⟨_, _, _, _, rfl⟩ := hs
      exact ⟨ht, by simp, by simp, ⟨t.rbuf, .unsynced, _, _, _, _, rfl⟩, by simp, by simp⟩
    · rename_i w u h; rw [h] at hs ht; obtain ⟨_, _, _, _, rfl⟩ := hs
      unfold syncEcho
      split
      · rename_i hw
        exact ⟨ht, by simp, by simp, ⟨[rev8 w], .synced, _, _, _, _, rfl⟩, by simp,
          fun _ => Or.inl ⟨rfl, by simp [hw]; rfl⟩⟩
      · rename_i hw
        exact ⟨ht, by simp, by simp, ⟨[rev8 w], .unsynced, _, _, _, _, rfl⟩, by simp,
          fun _ => Or.inr (Or.inl ⟨rfl, _, hw, rfl⟩)⟩

/-- How a command ends after its Send, for every environment (R95). -/
theorem concludeXfer_spec (n : Nat) (p : Sent × State) :
    (concludeXfer n p).2.tx = p.2.tx ∧ ((concludeXfer n p).1 = .failTransport .txFail ↔ p.1 = false) ∧
    (∀ x, (concludeXfer n p).1 ≠ .refused x) ∧
   SameButReceive p.2 (concludeXfer n p).2 ∧ (n = 0 → (concludeXfer n p).2 = p.2) := by
  rcases p with ⟨_ | _, t⟩
  · exact ⟨rfl, by simp [concludeXfer], by simp [concludeXfer], ⟨_, _, _, _, _, rfl⟩, fun _ => rfl⟩
  · have := xferReceive_result n t
    refine ⟨by simp [concludeXfer], by simp [concludeXfer, this.1], this.2, xferReceive_same _ _, ?_⟩
    rintro rfl; rfl

/-- What comes after a Send does not transmit, and reports TX_FAIL exactly if the Send failed (R34, R37). -/
theorem conclude_spec (op : OpKind) (hop : op ≠ .rx) (a : Acc) (n : Nat) (p : Sent × State) :
    (conclude op a n p).2.tx = p.2.tx ∧ ((conclude op a n p).1 = .failTransport .txFail ↔ p.1 = false) ∧
    ∀ x, (conclude op a n p).1 ≠ .refused x := by
  have h1 := concludeSync_spec p
  have h2 := concludeXfer_spec n p
  cases op
  case rx => exact absurd rfl hop
  case sync => exact ⟨h1.1, h1.2.1, h1.2.2.1⟩
  case tx => rcases p with ⟨_ | _, t⟩ <;> simp [conclude]
  case idle => rcases p with ⟨_ | _, t⟩ <;> simp [conclude]
  all_goals exact ⟨h2.1, h2.2.1, h2.2.2.1⟩

/-- Before its Send an operation emits nothing but the LineReset of SYNC (R38, R86). -/
theorem prepared_tx {i : Instr} {r : Request} (h : requestOf i = some r) (s : State) :
    (prepared r.op (accept r s)).tx = s.tx ++ (if i = .sync then [.lineReset] else []) ∧
    (prepared r.op (accept r s)).cfg = s.cfg := by
  by_cases hs : r.op = .sync
  · rw [hs]
    have : i = .sync := by cases i <;> simp [requestOf] at h <;> subst h <;> simp at hs ⊢
    simp [prepared, syncPrologue_eq, this]
  · have : i ≠ .sync := by rintro rfl; simp [requestOf] at h; subst h; exact hs rfl
    obtain ⟨x, c, e⟩ := prepared_same hs (accept r s)
    rw [e]; simp [this]

/-- A request that fails a check is refused (R85). -/
theorem refuse_exec {i : Instr} {r : Request} {x : RefuseReason} {s : State} (hr : requestOf i = some r)
    (ha : admission r s = some x) : exec i s = .next (refuse x s) := by
  rw [exec_request hr, perform_of_some ha]

/-- After its Send a command writes RBUF and the channel at most, RBUF not for size 0 (R95). -/
theorem concludeXfer_same (n : Nat) (p : Sent × State) :
    ∃ l q x e c, (concludeXfer n p).2 = { p.2 with rbuf := l, rxq := q, tx := x, env := e, freeClock := c } ∧
      (n = 0 → l = p.2.rbuf) := by
  by_cases hn : n = 0
  · refine ⟨_, _, _, _, _, (concludeXfer_spec n p).2.2.2.2 hn, fun _ => rfl⟩
  · obtain ⟨_, _, _, _, _, h⟩ := (concludeXfer_spec n p).2.2.2.1
    exact ⟨_, _, _, _, _, h, fun h => absurd h hn⟩

/-- The fields a command writes (R95 to R102). -/
theorem runOf_command_same {op : OpKind} (hg : gated op = true) (a : State) :
    ∃ y k l q x e c, (runOf op a).2 = { a with 
      acc := if op = .calibrate ∨ op = .snapshot then accNext a.acc else a.acc
      txbuf := y, csum := k, rbuf := l, rxq := q, tx := x, env := e, freeClock := c } ∧ (a.rsize = 0 → l = a.rbuf) := by
  have hsync : op ≠ .sync := by rintro rfl; simp [gated] at hg
  have hrx : op ≠ .rx := by rintro rfl; simp [gated] at hg
  rw [runOf_eq hrx]
  obtain ⟨y, k, e⟩ := prepared_same hsync a
  obtain ⟨q', x', e', c', h1⟩ := send_same (prepared op a).txbuf (prepared op a)
  obtain ⟨l, q, x, e2, c, h2, h3⟩ := concludeXfer_same a.rsize (sendTxbuf (prepared op a))
  simp only [sendTxbuf, h1] at h2 h3
  simp only [e] at h2 h3
  refine ⟨y, k, l, q, x, e2, c, ?_, h3⟩
  rw [e] at h1 ⊢
  cases op <;> first | (simp [gated] at hg; done) | exact h2 | exact congrArg (setAcc (accNext a.acc)) h2

/-- The counter after an operation (R11). -/
theorem runOf_acc (op : OpKind) (a : State) :
    (runOf op a).2.acc =
    if op = .calibrate ∨ op = .snapshot then accNext a.acc
    else if op = .sync ∧ a.cfg.accReinitOnSync = true then .four else a.acc := by
  cases hg : gated op
  · by_cases hrx : op = .rx
    · subst hrx
      obtain ⟨_, _, _, _, _, h⟩ := rxBody_same a.rsize a
      simp only [runOf, runRx]; rw [h]; simp
    · rw [runOf_eq hrx]
      cases op <;> simp only [gated, Bool.true_eq_false, not_true] at hg hrx
      · obtain ⟨l, v, _, _, _, _, h⟩ := (concludeSync_spec (sendTxbuf (syncPrologue a))).2.2.2.1
        obtain ⟨_, _, _, _, h1⟩ := send_same (syncPrologue a).txbuf (syncPrologue a)
        simp only [conclude, prepared]
        rw [h]
        show (sendTxbuf (syncPrologue a)).2.acc = _
        rw [sendTxbuf, h1, syncPrologue_eq]
        simp
      · obtain ⟨_, _, _, _, h1⟩ := send_same a.txbuf a
        simp only [conclude, prepared, sendTxbuf, h1]; simp
      · obtain ⟨_, _, e⟩ := prepared_same (op := .idle) (by simp) a
        obtain ⟨_, _, _, _, h1⟩ := send_same (prepared .idle a).txbuf (prepared .idle a)
        simp only [conclude, setSync_acc, sendTxbuf, h1]; rw [e]; simp
  · obtain ⟨_, _, _, _, _, _, _, h, _⟩ := runOf_command_same hg a
    rw [h]; cases op <;> simp [gated] at hg ⊢

/-- Every instruction completes. -/
theorem exec_next (i : Instr) (s : State) : ∃ t, exec i s = .next t := by cases i <;> exact ⟨_, rfl⟩

end Sys2Proof.Machine
end

