-- ==== Sys2Proof/Laws/Device.lean ====
section
/-!
SUPPORT. Send, Recv and the receive step on a line that is silent but for a device's answer (95_test_vectors.md section 0).
-/

namespace Sys2Proof.Machine

/-! ### Quiet moves: the scripted device of 95_test_vectors.md section 0 -/

theorem envMove_of_cons {s : State} {m : EnvMove} {e : List EnvMove} (h : s.env = m :: e) : envMove s = m := by
  simp [envMove, h]

/-- Before a quiet move nothing of the machine changes. -/
theorem envAct_quiet {s : State} {e : List EnvMove} (h : s.env = EnvMove.quiet :: e) :
    envAct s = { s with env := e } := by
  simp [envAct, envMove_of_cons h, h, EnvMove.quiet]

/-- A Send on a quiet line transmits its whole list and changes nothing else (R34). -/
theorem sendBytes_quiet (l : List Byte) {s : State} {e : List EnvMove}
    (h : s.env = List.replicate l.length EnvMove.quiet ++ e) :
    sendBytes l s = (true, { s with tx := s.tx ++ wireImage l, env := e }) := by
  induction l generalizing s with
  | nil => simp [sendBytes, wireImage, ← (show s.env = e from h)]
  | cons b l ih =>
    have h1 : s.env = EnvMove.quiet :: (List.replicate l.length EnvMove.quiet ++ e) := h
    simp only [sendBytes, envMove_of_cons h1, envAct_quiet h1]
    rw [if_neg (by simp [EnvMove.quiet]), ih rfl]
    simp [chanTxByte, wireImage]

theorem send_quiet (l : List Byte) {s : State} {e : List EnvMove}
    (h : s.env = List.replicate (l.length + 1) EnvMove.quiet ++ e) :
    send l s = (true, { s with rxq := [], tx := s.tx ++ wireImage l, env := e }) := by
  have h1 : s.env = EnvMove.quiet :: (List.replicate l.length EnvMove.quiet ++ e) := h
  rw [send, chanFlush, envAct_quiet h1]
  exact sendBytes_quiet l rfl

/-- A receive on a quiet line takes what the queue holds, at most n bytes, and changes nothing else (R35). -/
theorem recv_quiet (n : Nat) {s : State} {e : List EnvMove} (h : s.env = List.replicate n EnvMove.quiet ++ e) :
    ∃ e', recv n s = (s.rxq.take n, { s with rxq := s.rxq.drop n, env := e' }) := by
  induction n generalizing s with
  | zero => exact ⟨s.env, rfl⟩
  | succ n ih =>
    have h1 : s.env = EnvMove.quiet :: (List.replicate n EnvMove.quiet ++ e) := h
    cases hq : s.rxq with
    | nil =>
      exact ⟨_, by simp [recv, chanRxByte, envMove_of_cons h1, envAct_quiet h1, hq, EnvMove.quiet]; rfl⟩
    | cons w q =>
      obtain ⟨e', h2⟩ := ih (s := { s with rxq := q, env := List.replicate n EnvMove.quiet ++ e }) rfl
      exact ⟨e', by simp [recv, chanRxByte, envAct_quiet h1, hq, setRxq, h2]⟩

/-- The receive step against a device that answers `resp` and is silent afterwards (R88, R95). -/
theorem rxBody_answer {n : Nat} (hn : 1 ≤ n) {s : State} {resp : List Byte} {e : List EnvMove} (hq : s.rxq = [])
    (h : s.env = ⟨resp.map rev8, none, false⟩ :: (List.replicate n EnvMove.quiet ++ e)) :
    ∃ e', (rxBody n s).2 =
        { s with
          rbuf := resp.take (if resp.head?.map rev8 = some s.cfg.shortRaw then 2 else n)
          rxq := (resp.drop (if resp.head?.map rev8 = some s.cfg.shortRaw then 2 else n)).map rev8
          env := e' } ∧
      (rxBody n s).1 =
        if resp = [] then .failTransport .rxEmpty
        else if resp.length < (if resp.head?.map rev8 = some s.cfg.shortRaw then 2 else n) then .failTransport .rxShort
        else .ok := by
  have h0 : (setRbuf [] s).env = _ := h
  have hm : envMove (setRbuf [] s) = _ := envMove_of_cons h0
  have ha : envAct (setRbuf [] s) =
      { s with rbuf := [], rxq := resp.map rev8, env := List.replicate n EnvMove.quiet ++ e } := by
    unfold envAct
    rw [hm]
    simp [h, hq, setRbuf]
  cases resp with
  | nil =>
    have hc : chanRxByte (setRbuf [] s) =
        (none, { s with rbuf := [], rxq := [], env := List.replicate n EnvMove.quiet ++ e }) := by
      simp [chanRxByte, ha, hm]
    exact ⟨List.replicate n EnvMove.quiet ++ e, by simp [rxBody, hc], by simp [rxBody, hc]⟩
  | cons b l =>
    have hc : chanRxByte (setRbuf [] s) =
        (some (rev8 b), { s with rbuf := [], rxq := l.map rev8, env := List.replicate n EnvMove.quiet ++ e }) := by
      simp [chanRxByte, ha, setRxq]
    have hm' : ∃ k, n = restLen s.cfg n (rev8 b) + k := by
      unfold restLen
      split
      · exact ⟨n - 1, by omega⟩
      · exact ⟨1, by omega⟩
    obtain ⟨k, hk⟩ := hm'
    have hd : (if (b :: l).head?.map rev8 = some s.cfg.shortRaw then 2 else n) = restLen s.cfg n (rev8 b) + 1 := by
      simp only [List.head?_cons, Option.map_some, Option.some.injEq, restLen]
      split
      · rfl
      · omega
    rw [hd]
    generalize hr : restLen s.cfg n (rev8 b) = m at hk
    have hb : rxBody n s =
        rxRest (rev8 b) m { s with rbuf := [], rxq := l.map rev8, env := List.replicate n EnvMove.quiet ++ e } := by
      unfold rxBody
      rw [hc]
      simp [hr]
    obtain ⟨e', h2⟩ := recv_quiet m (e := List.replicate k EnvMove.quiet ++ e)
      (s := setRbuf [rev8 (rev8 b)]
        { s with rbuf := [], rxq := l.map rev8, env := List.replicate n EnvMove.quiet ++ e })
      (by show List.replicate n EnvMove.quiet ++ e = _; rw [hk, ← List.replicate_append_replicate, List.append_assoc])
    rw [hb, rxRest_eq, h2]
    refine ⟨e', ?_, ?_⟩
    · simp [setRbuf, List.map_take, Function.comp_def]
    · simp [setRbuf]

end Sys2Proof.Machine
end

