-- ==== Sys2Proof/Laws/PerInstr.lean ====
section
/-!
SUPPORT. Per-instruction laws about the syntax. Family Expands: what an instruction expands to (R68) is well formed if it is,
is its own expansion, and requests the same host operation.
-/

namespace Sys2Proof.Laws.Expands

open Sys2Proof.Machine

/-- What an instruction expands to is a core instruction that asks for the same. -/
def Statement (i : Instr) : Prop :=
  (i.wf = true → (expand i).wf = true) ∧ expand (expand i) = expand i ∧ requestOf (expand i) = requestOf i

theorem sync : Statement .sync := ⟨id, rfl, rfl⟩
theorem read (ah al len : Byte) (rsize : Nat) : Statement (.read ah al len rsize) := ⟨id, rfl, rfl⟩
theorem write (ah al val : Byte) (rsize : Nat) : Statement (.write ah al val rsize) := ⟨id, rfl, rfl⟩
theorem calibrate (rsize : Nat) : Statement (.calibrate rsize) := ⟨id, rfl, rfl⟩
theorem configure (rsize : Nat) : Statement (.configure rsize) := ⟨id, rfl, rfl⟩
theorem snapshot (rsize : Nat) : Statement (.snapshot rsize) := ⟨id, rfl, rfl⟩
theorem keepalive (rsize : Nat) : Statement (.keepalive rsize) := ⟨id, rfl, rfl⟩
theorem idle : Statement .idle := ⟨id, rfl, rfl⟩
theorem respFull (rest : List Byte) : Statement (.respFull rest) := ⟨id, rfl, rfl⟩
theorem respShort (strailer : Byte) : Statement (.respShort strailer) := ⟨id, rfl, rfl⟩
theorem respInvalid (status : Byte) (rest : List Byte) : Statement (.respInvalid status rest) := ⟨id, rfl, rfl⟩
theorem tx (l : List Byte) : Statement (.tx l) := ⟨id, rfl, rfl⟩
theorem rx (n : Nat) : Statement (.rx n) := ⟨id, rfl, rfl⟩
theorem rev8 (b : Byte) : Statement (.rev8 b) := ⟨id, rfl, rfl⟩
theorem csum16 (l : List Byte) : Statement (.csum16 l) := ⟨id, rfl, rfl⟩
theorem accnext (a : Acc) : Statement (.accnext a) := ⟨id, rfl, rfl⟩
theorem readreg (addr : Word) (n : Byte) : Statement (.readreg addr n) := ⟨fun _ => rfl, rfl, rfl⟩
theorem writereg (addr : Word) (v : Byte) (rsize : Nat) : Statement (.writereg addr v rsize) :=
  ⟨fun _ => rfl, rfl, rfl⟩
theorem flush : Statement .flush := ⟨fun _ => rfl, rfl, rfl⟩

end Sys2Proof.Laws.Expands
end

