-- ==== Sys2Proof/Laws/Sequencer.lean ====
section
/-!
SUPPORT. The sequencer tick by tick: the Send loop and the receive step run by ticks are Send and the receive step (R22, R25).
-/

namespace Sys2Proof.Machine

/-! ### Runs of ticks -/

/-- Ticks one after another. -/
theorem ticks_trans {a b : Nat} {s t : State} (h : ticks a s = .next t) : ticks (a + b) s = ticks b t := by
  induction a generalizing s with
  | zero => simp only [ticks] at h; injection h with h; simp [h]
  | succ a ih =>
    rw [show a + 1 + b = (a + b) + 1 by omega]
    simp only [ticks] at h ⊢
    cases ht : tick s <;> rw [ht] at h <;> first | exact ih h | simp at h

/-- One tick at a legal position (R25). -/
theorem ticks_one {s : State} (hb : s.busy = true) (hp : positionOk s = true) : ticks 1 s = .next (advance s) := by
  simp [ticks, tick, hb, hp]

/-- What an operation leaves does not depend on PHASE and IDX at its return (R25). -/
@[simp] theorem retire_setSeq (r : Result) (p : Phase) (j : Nat) (s : State) :
    retire r (setSeq p j s) = retire r s := rfl

@[simp] theorem finish_setSeq (r : Result) (p : Phase) (j : Nat) (s : State) :
    finish r (setSeq p j s) = finish r s := by
  unfold finish
  simp only [setSeq_op]
  split <;> rfl

/-- A channel read does not look at PHASE and IDX. -/
theorem chanRxByte_setSeq (p : Phase) (j : Nat) (s : State) :
    chanRxByte (setSeq p j s) = ((chanRxByte s).1, setSeq p j (chanRxByte s).2) := by
  simp only [chanRxByte, setSeq, envAct, envMove, setRxq]
  split <;> rfl

/-- The Send loop tick by tick is the Send loop (R34). -/
theorem ticks_sending (l : List Byte) (hl : l ≠ []) (pre : List Byte) (s : State) (hb : s.busy = true)
    (hop : s.op ≠ .rx) (hx : s.txbuf = pre ++ l) :
    ∃ k j, ticks k (setSeq .sending pre.length s) = .next
      (if (sendBytes l s).1 then afterSend (setSeq .sending j (sendBytes l s).2)
        else finish (.failTransport .txFail) (sendBytes l s).2) := by
  induction l generalizing pre s with
  | nil => exact absurd rfl hl
  | cons b l ih =>
    have hp : positionOk (setSeq .sending pre.length s) = true := by
      simp [positionOk, setSeq, hx, hop]
    have h1 := ticks_one (s := setSeq .sending pre.length s) hb hp
    have hg : s.txbuf[pre.length]? = some b := by simp [hx]
    have ha : advance (setSeq .sending pre.length s) = advanceSending b (setSeq .sending pre.length s) := by
      simp [advance, hg]
    rw [ha] at h1
    by_cases hf : (s.cfg.txCanFail && (envMove s).txFail) = true
    · refine ⟨1, 0, ?_⟩
      rw [h1]
      have hf' : ((setSeq .sending pre.length s).cfg.txCanFail &&
          (envMove (setSeq .sending pre.length s)).txFail) = true := hf
      simp only [advanceSending, hf', sendBytes, hf, if_true]
      rw [if_neg (by simp), ← finish_setSeq _ .sending pre.length]
      rfl
    · have hf' : ((setSeq .sending pre.length s).cfg.txCanFail &&
          (envMove (setSeq .sending pre.length s)).txFail) = false := by
        show (s.cfg.txCanFail && (envMove s).txFail) = false
        simpa using hf
      let u := chanTxByte (rev8 b) (envAct s)
      have hadv : advanceSending b (setSeq .sending pre.length s) =
          (if pre.length + 1 < s.txbuf.length then setSeq .sending (pre.length + 1) u
            else afterSend (setSeq .sending (pre.length + 1) u)) := by
        simp only [advanceSending, hf']; rfl
      have hs : sendBytes (b :: l) s = sendBytes l u := by
        simp only [sendBytes]; rw [if_neg hf]
      rw [hs]
      cases l with
      | nil =>
        refine ⟨1, pre.length + 1, ?_⟩
        rw [h1, hadv, if_neg (by simp [hx])]
        rfl
      | cons b' l =>
        obtain ⟨k, j, h2⟩ := ih (by simp) (pre ++ [b]) u hb hop (by show s.txbuf = _; simp [hx])
        rw [hadv, if_pos (by simp [hx])] at h1
        refine ⟨1 + k, j, ?_⟩
        rw [ticks_trans h1]
        simpa using h2

@[simp] theorem received_setSeq (p : Phase) (j : Nat) (s : State) :
    received (setSeq p j s) = received s := by
  unfold received
  simp only [setSeq_op]
  split <;> exact finish_setSeq _ _ _ _

/-- A receive does not look at RBUF. -/
theorem recv_setRbuf (l : List Byte) (n : Nat) (s : State) :
    recv n (setRbuf l s) = ((recv n s).1, setRbuf l (recv n s).2) := by
  induction n generalizing s with
  | zero => rfl
  | succ n ih =>
    have hc : chanRxByte (setRbuf l s) = ((chanRxByte s).1, setRbuf l (chanRxByte s).2) := by
      simp only [chanRxByte, setRbuf, envAct, envMove, setRxq]
      split <;> rfl
    simp only [recv, hc]
    rcases chanRxByte s with ⟨_ | w, t⟩
    · rfl
    · simp only [ih]

/-- The later bytes of the receive step tick by tick (R88). -/
theorem ticks_recvRest (m : Nat) (s : State) (w : Wire) (got : List Byte) (hb : s.busy = true)
    (hop : s.op ≠ .tx ∧ s.op ≠ .idle ∧ s.op ≠ .sync) (hr : s.rbuf = rev8 w :: got)
    (hm : restLen s.cfg s.rsize w = got.length + (m + 1)) :
    ∃ k, ticks k (setSeq .recvRest got.length s) = .next
      (if (recv (m + 1) s).1.length < m + 1 then
        finish (.failTransport .rxShort) (setRbuf (s.rbuf ++ (recv (m + 1) s).1.map rev8) (recv (m + 1) s).2)
      else received (setRbuf (s.rbuf ++ (recv (m + 1) s).1.map rev8) (recv (m + 1) s).2)) := by
  induction m generalizing s got with
  | zero =>
    have hp : positionOk (setSeq .recvRest got.length s) = true := by
      simp [positionOk, setSeq, restDue, hr, hm, hop]
    have h1 := ticks_one (s := setSeq .recvRest got.length s) hb hp
    have hcs := chanRxByte_same s
    have ha : advance (setSeq .recvRest got.length s) = advanceRest (setSeq .recvRest got.length s) := rfl
    rw [ha, advanceRest, chanRxByte_setSeq] at h1
    refine ⟨1, ?_⟩
    rw [h1, recv]
    rcases hc : chanRxByte s with ⟨_ | v, t⟩
    · rw [hc] at hcs
      obtain ⟨_, _, _, _, rfl⟩ := hcs
      simp [setRbuf]
    · rw [hc] at hcs
      obtain ⟨_, _, _, _, rfl⟩ := hcs
      simp only [recv]
      simp [restDue, hr, hm, setRbuf]
      exact Eq.trans (b := received (setSeq .recvRest got.length _)) rfl (received_setSeq .recvRest got.length _)
  | succ m ih =>
    have hp : positionOk (setSeq .recvRest got.length s) = true := by
      simp [positionOk, setSeq, restDue, hr, hm, hop]
    have h1 := ticks_one (s := setSeq .recvRest got.length s) hb hp
    have hcs := chanRxByte_same s
    have ha : advance (setSeq .recvRest got.length s) = advanceRest (setSeq .recvRest got.length s) := rfl
    rw [ha, advanceRest, chanRxByte_setSeq] at h1
    rw [recv]
    rcases hc : chanRxByte s with ⟨_ | v, t⟩
    · rw [hc] at h1 hcs
      obtain ⟨_, _, _, _, rfl⟩ := hcs
      refine ⟨1, ?_⟩
      rw [h1]
      simp [setRbuf]
    · rw [hc] at h1 hcs
      obtain ⟨_, _, _, _, ht⟩ := hcs
      have hrb : t.rbuf = s.rbuf := by subst ht; rfl
      have hcf : t.cfg = s.cfg := by subst ht; rfl
      have hrs : t.rsize = s.rsize := by subst ht; rfl
      have hto : t.op = s.op := by subst ht; rfl
      have htb : t.busy = s.busy := by subst ht; rfl
      obtain ⟨k, h2⟩ := ih (setRbuf (s.rbuf ++ [rev8 v]) t) (got ++ [rev8 v]) (by rw [setRbuf_busy, htb, hb])
        (by rw [setRbuf_op, hto]; exact hop) (by simp [hr]) (by simp [hrs, hcf, hm]; omega)
      refine ⟨1 + k, ?_⟩
      have h3 : ticks 1 (setSeq .recvRest got.length s) =
          .next (setSeq .recvRest (got ++ [rev8 v]).length (setRbuf (s.rbuf ++ [rev8 v]) t)) := by
        rw [h1]
        simp [hrb, restDue, hr, hrs, hcf, hm, setSeq, setRbuf]
      rw [ticks_trans h3, h2, recv_setRbuf]
      simp [setRbuf]

/-- The receive step tick by tick (R88). -/
theorem ticks_receive (s : State) (hb : s.busy = true) (hop : s.op ≠ .tx ∧ s.op ≠ .idle ∧ s.op ≠ .sync)
    (hn : 1 ≤ s.rsize) :
    ∃ k, ticks k (setSeq .recvFirst 0 s) = .next
      (if (rxBody s.rsize s).1 = .ok then received (rxBody s.rsize s).2
        else finish (rxBody s.rsize s).1 (rxBody s.rsize s).2) := by
  have hp : positionOk (setSeq .recvFirst 0 s) = true := by simp [positionOk, setSeq, hop, hn]
  have h1 := ticks_one (s := setSeq .recvFirst 0 s) hb hp
  have ha : advance (setSeq .recvFirst 0 s) = advanceFirst (setSeq .recvFirst 0 s) := by
    simp [advance, hop]
  have hcs := chanRxByte_same (setRbuf [] s)
  have he : setRbuf [] (setSeq .recvFirst 0 s) = setSeq .recvFirst 0 (setRbuf [] s) := rfl
  rw [ha, advanceFirst, he, chanRxByte_setSeq] at h1
  rw [rxBody]
  rcases hc : chanRxByte (setRbuf [] s) with ⟨_ | w, t⟩
  · rw [hc] at h1
    exact ⟨1, by rw [h1]; simp⟩
  · rw [hc] at h1 hcs
    obtain ⟨_, _, _, _, ht⟩ := hcs
    have hcf : t.cfg = s.cfg := by subst ht; rfl
    have hrs : t.rsize = s.rsize := by subst ht; rfl
    have hto : t.op = s.op := by subst ht; rfl
    have htb : t.busy = s.busy := by subst ht; rfl
    simp only [rxRest_eq, hcf]
    have hd : restDue (setSeq .recvRest 0 (setRbuf [rev8 w] t)) = restLen s.cfg s.rsize w := by
      simp [restDue, hcf, hrs]
    have h2 : ticks 1 (setSeq .recvFirst 0 s) = .next
        (if restLen s.cfg s.rsize w = 0 then received (setRbuf [rev8 w] t)
          else setSeq .recvRest 0 (setRbuf [rev8 w] t)) := by
      rw [h1]
      show Host.Outcome.next (if restDue (setSeq .recvRest 0 (setRbuf [rev8 w] t)) = 0 then
        received (setSeq .recvRest 0 (setRbuf [rev8 w] t)) else setSeq .recvRest 0 (setRbuf [rev8 w] t)) = _
      rw [hd, received_setSeq]
    cases hm : restLen s.cfg s.rsize w with
    | zero =>
      refine ⟨1, ?_⟩
      rw [h2, if_pos hm]
      simp [recv, setRbuf]
    | succ m =>
      rw [hm, if_neg (by omega)] at h2
      obtain ⟨k, h3⟩ := ticks_recvRest m (setRbuf [rev8 w] t) w [] (by rw [setRbuf_busy, htb, hb])
        (by rw [setRbuf_op, hto]; exact hop) rfl (by simp [hcf, hrs, hm])
      refine ⟨1 + k, ?_⟩
      rw [ticks_trans h2]
      rw [List.length_nil] at h3
      rw [h3]
      rw [recv_setRbuf]
      by_cases hl : (recv (m + 1) t).1.length < m + 1
      · simp only [hl, if_true, reduceCtorEq, if_false]; rfl
      · simp only [hl, if_true, if_false]; rfl

/-- The sequencer prepares an operation as the blocking form does. -/
theorem prepare_eq (s : State) : prepare s = match s.op with
    | .sync => s
    | op => prepared op s := by
  unfold prepare prepared
  cases s.op <;> rfl

/-- A Send tick by tick (R34). -/
theorem ticks_send (s : State) (hb : s.busy = true) (hop : s.op ≠ .rx) :
    ∃ k j, ticks k (setSeq .flush 0 s) = .next
      (if (sendTxbuf s).1 then afterSend (setSeq .sending j (sendTxbuf s).2)
        else finish (.failTransport .txFail) (sendTxbuf s).2) := by
  have hp : positionOk (setSeq .flush 0 s) = true := by simp [positionOk, setSeq, hop]
  have h1 := ticks_one (s := setSeq .flush 0 s) hb hp
  have ha : advance (setSeq .flush 0 s) =
      (if s.txbuf = [] then afterSend (setSeq .sending 0 (chanFlush s))
        else setSeq .sending 0 (chanFlush s)) := rfl
  rw [ha] at h1
  cases hx : s.txbuf with
  | nil =>
    refine ⟨1, 0, ?_⟩
    rw [h1, if_pos hx, sendTxbuf, hx]
    rfl
  | cons b l =>
    rw [if_neg (by simp [hx])] at h1
    obtain ⟨k, j, h2⟩ := ticks_sending (b :: l) (by simp) [] (chanFlush s) hb hop (by show s.txbuf = _; simp [hx])
    refine ⟨1 + k, j, ?_⟩
    rw [ticks_trans h1]
    rw [List.length_nil] at h2
    rw [h2, sendTxbuf, send, hx]

/-- The echo of SYNC tick by tick (R86). -/
theorem ticks_echo (s : State) (hb : s.busy = true) (hop : s.op = .sync) :
    ticks 1 (setSeq .recvFirst 0 s) = .next (retire (concludeSync (true, s)).1 (concludeSync (true, s)).2) := by
  have hp : positionOk (setSeq .recvFirst 0 s) = true := by simp [positionOk, setSeq, hop]
  rw [ticks_one (s := setSeq .recvFirst 0 s) hb hp]
  have ha : advance (setSeq .recvFirst 0 s) = advanceEcho (setSeq .recvFirst 0 s) := by simp [advance, hop]
  have hs := chanRxByte_same s
  rw [ha, advanceEcho, chanRxByte_setSeq, concludeSync, if_pos rfl]
  rcases hc : chanRxByte s with ⟨_ | w, t⟩
  · rw [hc] at hs
    obtain ⟨_, _, _, _, rfl⟩ := hs
    simp [finish, hop]
    rfl
  · simp only [syncEcho]
    split <;> rfl
end Sys2Proof.Machine
end

