-- ==== Sys2Proof/Laws/Trace.lean ====
section
/-!
SUPPORT. What every operation, every tick and every request keeps: CFG, the events already on TX, released line outputs.
-/

namespace Sys2Proof.Machine

/-- CFG is kept (R23), TX is extended (R18), released line outputs are released afterwards (R16, R38). -/
def Extends (s t : State) : Prop :=
  t.cfg = s.cfg ∧ (∃ new, t.tx = s.tx ++ new) ∧ (s.brk = false → s.ctl = false → t.brk = false ∧ t.ctl = false)

theorem Extends.refl (s : State) : Extends s s := ⟨rfl, ⟨[], by simp⟩, fun a b => ⟨a, b⟩⟩

theorem Extends.trans {s t u : State} (h : Extends s t) (k : Extends t u) : Extends s u := by
  obtain ⟨a, ⟨n, b⟩, c⟩ := h
  obtain ⟨a', ⟨n', b'⟩, c'⟩ := k
  exact ⟨a'.trans a, ⟨n ++ n', by rw [b', b, List.append_assoc]⟩, fun x y => c' (c x y).1 (c x y).2⟩

theorem Extends.of {s t : State} (a : t.cfg = s.cfg) (b : t.tx = s.tx) (c : t.brk = s.brk) (d : t.ctl = s.ctl) :
    Extends s t :=
  ⟨a, ⟨[], by simp [b]⟩, fun x y => ⟨c.trans x, d.trans y⟩⟩

theorem chanRxByte_extends (s : State) : Extends s (chanRxByte s).2 := by
  unfold chanRxByte; split <;> exact Extends.of rfl rfl rfl rfl

theorem sendBytes_extends (l : List Byte) (s : State) : Extends s (sendBytes l s).2 := by
  obtain ⟨_, _, _, _, h⟩ := sendBytes_same l s
  obtain ⟨k, _, h2, _⟩ := sendBytes_tx l s
  refine ⟨by rw [h], ⟨_, h2⟩, fun x y => by rw [h]; exact ⟨x, y⟩⟩

theorem send_extends (l : List Byte) (s : State) : Extends s (send l s).2 :=
  (Extends.of rfl rfl rfl rfl : Extends s (chanFlush s)).trans (sendBytes_extends _ _)

theorem rxBody_extends (n : Nat) (s : State) : Extends s (rxBody n s).2 := by
  obtain ⟨_, _, _, _, _, h⟩ := rxBody_same n s
  have := rxBody_tx n s
  exact Extends.of (by rw [h]) this (by rw [h]) (by rw [h])

theorem setSync_extends (v : SyncState) (s : State) : Extends s (setSync v s) := Extends.of rfl rfl rfl rfl

theorem concludeXfer_extends (n : Nat) (p : Sent × State) : Extends p.2 (concludeXfer n p).2 := by
  obtain ⟨_, _, _, _, _, h, _⟩ := concludeXfer_same n p
  exact Extends.of (by rw [h]) (concludeXfer_spec n p).1 (by rw [h]) (by rw [h])

theorem concludeSync_extends (p : Sent × State) : Extends p.2 (concludeSync p).2 := by
  obtain ⟨l, v, _, _, _, _, h⟩ := (concludeSync_spec p).2.2.2.1
  exact Extends.of (by rw [h]) (concludeSync_spec p).1 (by rw [h]) (by rw [h])

theorem prepared_extends (op : OpKind) (a : State) : Extends a (prepared op a) := by
  by_cases hs : op = .sync
  · subst hs; simp only [prepared, syncPrologue_eq]; exact ⟨rfl, ⟨_, rfl⟩, fun _ _ => ⟨rfl, rfl⟩⟩
  · obtain ⟨_, _, e⟩ := prepared_same hs a
    rw [e]; exact Extends.of rfl rfl rfl rfl

theorem runOf_extends (op : OpKind) (a : State) : Extends a (runOf op a).2 := by
  by_cases hrx : op = .rx
  · subst hrx; exact rxBody_extends _ _
  · rw [runOf_eq hrx]
    have h1 := (prepared_extends op a).trans (send_extends (prepared op a).txbuf (prepared op a))
    have h2 := concludeXfer_extends a.rsize (sendTxbuf (prepared op a))
    cases op
    case rx => exact absurd rfl hrx
    case sync => exact h1.trans (concludeSync_extends _)
    case tx => exact h1
    case idle => exact h1.trans (setSync_extends _ _)
    case calibrate => exact (h1.trans h2).trans (Extends.of rfl rfl rfl rfl)
    case snapshot => exact (h1.trans h2).trans (Extends.of rfl rfl rfl rfl)
    all_goals exact h1.trans h2

theorem accept_extends (r : Request) (s : State) : Extends s (accept r s) := by
  obtain ⟨_, _, _, _, _, h⟩ := accept_same r s
  rw [h]; exact Extends.of rfl rfl rfl rfl

theorem retire_extends (r : Result) (s : State) : Extends s (retire r s) := Extends.of rfl rfl rfl rfl

theorem refuse_extends (x : RefuseReason) (s : State) : Extends s (refuse x s) := by
  rw [refuse_same]; exact Extends.of rfl rfl rfl rfl

theorem exec_extends {i : Instr} {s t : State} (h : exec i s = .next t) : Extends s t := by
  cases hr : requestOf i with
  | none =>
    cases i <;> simp [requestOf] at hr <;> simp only [exec] at h <;> injection h with h <;> subst h <;>
      exact Extends.of rfl rfl rfl rfl
  | some r =>
    rw [exec_request hr, perform] at h
    injection h with h; subst h
    split
    · exact refuse_extends _ _
    · exact ((accept_extends _ _).trans (runOf_extends _ _)).trans (retire_extends _ _)

theorem finish_extends (r : Result) (s : State) : Extends s (finish r s) := by
  unfold finish; split <;> exact Extends.of rfl rfl rfl rfl

theorem afterSend_extends (s : State) : Extends s (afterSend s) := by
  unfold afterSend; split <;> (try split) <;> first | exact finish_extends _ _ | exact Extends.of rfl rfl rfl rfl

theorem received_extends (s : State) : Extends s (received s) := by
  unfold received; split <;> exact finish_extends _ _

theorem setSeq_extends (p : Phase) (j : Nat) (s : State) : Extends s (setSeq p j s) :=
  Extends.of rfl rfl rfl rfl

theorem setRbuf_extends (l : List Byte) (s : State) : Extends s (setRbuf l s) := Extends.of rfl rfl rfl rfl

theorem envAct_extends (s : State) : Extends s (envAct s) := Extends.of rfl rfl rfl rfl

theorem chanTxByte_extends (w : Wire) (s : State) : Extends s (chanTxByte w s) :=
  ⟨rfl, ⟨_, rfl⟩, fun x y => ⟨x, y⟩⟩

theorem advance_extends (s : State) : Extends s (advance s) := by
  unfold advance
  split
  · exact (prepared_extends .sync s).trans (setSeq_extends _ _ _)
  · unfold advanceFlush; simp only []; split
    · exact ((Extends.of rfl rfl rfl rfl : Extends s (setSeq .sending 0 (chanFlush s)))).trans (afterSend_extends _)
    · exact Extends.of rfl rfl rfl rfl
  · split
    · exact Extends.refl _
    · unfold advanceSending
      split
      · exact (envAct_extends s).trans (finish_extends _ _)
      · simp only []
        have := ((envAct_extends s).trans (chanTxByte_extends (rev8 ‹_›) (envAct s))).trans
          (setSeq_extends .sending (s.idx + 1) _)
        split
        · exact this
        · exact this.trans (afterSend_extends _)
  · split
    · unfold advanceEcho
      have := chanRxByte_extends s
      split
      · rename_i h; rw [h] at this; exact this.trans (finish_extends _ _)
      · rename_i w t h; rw [h] at this; unfold syncEcho; split <;> exact this.trans (Extends.of rfl rfl rfl rfl)
    · unfold advanceFirst
      have := (setRbuf_extends [] s).trans (chanRxByte_extends (setRbuf [] s))
      split
      · rename_i h; rw [h] at this; exact this.trans (finish_extends _ _)
      · rename_i w t h; rw [h] at this; simp only []
        have := (this.trans (setRbuf_extends [rev8 w] t)).trans (setSeq_extends .recvRest 0 _)
        split
        · exact this.trans (received_extends _)
        · exact this
  · unfold advanceRest
    have := chanRxByte_extends s
    split
    · rename_i h; rw [h] at this; exact this.trans (finish_extends _ _)
    · rename_i w t h; rw [h] at this; simp only []
      have := (this.trans (setRbuf_extends (t.rbuf ++ [rev8 w]) t)).trans (setSeq_extends .recvRest (s.idx + 1) _)
      split
      · exact this
      · exact this.trans (received_extends _)

theorem tick_extends {s t : State} (h : tick s = .next t) : Extends s t := by
  unfold tick at h
  split at h
  · split at h
    · injection h with h; subst h; exact advance_extends _
    · simp at h
  · injection h with h; subst h; exact Extends.refl _

theorem enter_extends (s : State) : Extends s (enter s) := by
  unfold enter
  have : Extends s (prepare s) := by
    rw [prepare_eq]; split
    · exact Extends.refl _
    · exact prepared_extends _ _
  exact this.trans (setSeq_extends _ _ _)

theorem startInstr_extends {i : Instr} {s t : State} (h : startInstr i s = .next t) : Extends s t := by
  unfold startInstr at h
  split at h
  · injection h with h; subst h; unfold beginRequest; split
    · exact refuse_extends _ _
    · exact (accept_extends _ _).trans (enter_extends _)
  · exact exec_extends h

/-- What a step does with an image that names no instruction: send its bytes, let them arrive, or refuse. -/
theorem runUndecoded_cases (run : Instr → State → Host.Outcome State Fault Refusal) (e : DecodeError) (img : Image)
    (s : State) :
    (img.port = .command ∧ runUndecoded run e img s = run (.tx img.bytes) s) ∨
    (img.port = .line ∧ runUndecoded run e img s = .next (arrive img.bytes s)) ∨
    (img.port ≠ .command ∧ img.port ≠ .line ∧ runUndecoded run e img s = .refused (.undecodable e)) := by
  unfold runUndecoded
  cases img.port <;> simp

theorem runUndecoded_extends {run : Instr → State → Host.Outcome State Fault Refusal}
    (hrun : ∀ {i : Instr} {s t : State}, run i s = .next t → Extends s t) {e : DecodeError} {img : Image} {s t : State}
    (h : runUndecoded run e img s = .next t) : Extends s t := by
  rcases runUndecoded_cases run e img s with ⟨-, k⟩ | ⟨-, k⟩ | ⟨-, -, k⟩ <;> rw [k] at h
  · exact hrun h
  · injection h with h; subst h; exact Extends.of rfl rfl rfl rfl
  · simp at h

end Sys2Proof.Machine
end

