-- ==== Sys2Proof/Tests/Slice0.lean ====
section
/-!
SUPPORT. The model's own tests: ill-formed instructions, the words of 30_encoding.md, one-step vectors of
95_test_vectors.md (named V<n> as there), and a witness for the hypotheses of every statement of Obligations.lean.
-/

namespace Sys2Proof.Tests

open Sys2Proof.Machine

/-! ### Small states -/

/-- The configuration of the vectors: the defaults, every argument list the placeholder [00]. -/
def cfg0 : Cfg :=
  { Config.powerOnCfg with argsCal := [0x00], argsConf := [0x00], argsSnap := [0x00], argsKeep := [0x00] }

/-- Power-on with that configuration, the environment's moves and the queue given. -/
def base (env : List EnvMove) (rxq : List Wire) : State :=
  { State.reset with cfg := cfg0, env := env, rxq := rxq }

/-- The state after a successful SYNC. -/
def inSession (env : List EnvMove) : State := { base env [] with syncState := .synced, rbuf := [0xAA] }

/-- A state with an operation in progress: IDLE, before the second byte of its frame. -/
def midIdle : State :=
  { base [] [] with op := .idle, busy := true, txbuf := [0xB0, 0x00, 0xB0], csum := 0x00B0, phase := .sending, idx := 1 }

/-- A state with CALIBRATE 9 in progress, before the last byte of its response. -/
def midReceive : State :=
  { inSession [] with op := .calibrate, rsize := 9, busy := true, rbuf := List.replicate 8 0x81, phase := .recvRest, idx := 7 }

def quiets (n : Nat) : List EnvMove := List.replicate n EnvMove.quiet

/-- A field of the next state. -/
def after {α : Type} (o : Host.Outcome State Fault Refusal) (f : State → α) : Option α :=
  match o with
  | .next t => some (f t)
  | .fault _ => none
  | .refused _ => none

def isNext (o : Host.Outcome State Fault Refusal) : Bool := (after o fun _ => ()).isSome

/-- The answer of V86 in logical bytes. -/
def goodAnswer : List Byte := [0x81, 0x00, 0x11, 0x65, 0x53, 0xF1, 0x00, 0x02, 0x3B]

/-! ### Well-formedness: the one check, from both sides (R63) -/

theorem smoke_respInvalid_full : Instr.wf (.respInvalid 0x81 []) = false := by decide
theorem smoke_respInvalid_short : Instr.wf (.respInvalid 0x82 [0x00]) = false := by decide
theorem smoke_respInvalid_neighbours :
    Instr.wf (.respInvalid 0x80 []) = true ∧ Instr.wf (.respInvalid 0x83 []) = true := by decide

/-! ### A word of every constructor, written out from its encoding (30_encoding.md; opcode_table.json) -/

theorem decode_sync : decode cfg0 ⟨.command, [0b10101010], 0⟩ = .ok .sync := by decide
theorem decode_read :
    decode cfg0 ⟨.command, [0b00000001, 0b00000100, 0b00000011, 0b00000000, 0b00010001, 0b00000100, 0b00000000,
      0b00011101], 9⟩ = .ok (.read 0x00 0x11 0x04 9) := by decide
theorem decode_write :
    decode cfg0 ⟨.command, [0b00000001, 0b00000101, 0b00000011, 0b00000000, 0b00100011, 0b01011010, 0b00000000,
      0b10000110], 0⟩ = .ok (.write 0x00 0x23 0x5A 0) := by decide
theorem decode_calibrate :
    decode cfg0 ⟨.command, [0b01010101, 0b00001100, 0b00000000, 0b00000000, 0b01100001], 3⟩ = .ok (.calibrate 3) := by
  decide
theorem decode_configure :
    decode cfg0 ⟨.command, [0b01100000, 0b00000100, 0b00000000, 0b00000000, 0b01100100], 0⟩ = .ok (.configure 0) := by
  decide
theorem decode_snapshot :
    decode cfg0 ⟨.command, [0b01100001, 0b00011100, 0b00000000, 0b00000000, 0b01111101], 0⟩ = .ok (.snapshot 0) := by
  decide
theorem decode_keepalive :
    decode cfg0 ⟨.command, [0b01100010, 0b00000100, 0b00000000, 0b00000000, 0b01100110], 0⟩ = .ok (.keepalive 0) := by
  decide
theorem decode_idle : decode cfg0 ⟨.command, [0b10110000, 0b00000000, 0b10110000], 0⟩ = .ok .idle := by decide
theorem decode_respFull :
    decode cfg0 ⟨.line, [0b10000001, 0x00, 0x11, 0x00, 0x92], 0⟩ = .ok (.respFull [0x00, 0x11, 0x00, 0x92]) := by decide
theorem decode_respShort : decode cfg0 ⟨.line, [0b10000010, 0b00000111], 0⟩ = .ok (.respShort 0x07) := by decide
theorem decode_respInvalid :
    decode cfg0 ⟨.line, [0b01111111, 0x00], 0⟩ = .ok (.respInvalid 0x7F [0x00]) := by decide
theorem decode_tx : decode cfg0 ⟨.send, [0x01, 0x02], 0⟩ = .ok (.tx [0x01, 0x02]) := by decide
theorem decode_rx : decode cfg0 ⟨.receive, [], 9⟩ = .ok (.rx 9) := by decide
theorem decode_rev8 : decode cfg0 ⟨.rev8, [0x12], 0⟩ = .ok (.rev8 0x12) := by decide
theorem decode_csum16 : decode cfg0 ⟨.csum16, [0xFF, 0xFF], 0⟩ = .ok (.csum16 [0xFF, 0xFF]) := by decide
theorem decode_accnext : decode cfg0 ⟨.accnext, [0x0C], 0⟩ = .ok (.accnext .twelve) := by decide
/-- A pseudo-operation's words are those of what it expands to (R68). -/
theorem decode_readreg :
    decode cfg0 ⟨.command, [0x01, 0x04, 0x03, 0x12, 0x34, 0x10, 0x00, 0x5E], 21⟩ =
      .ok (expand (.readreg 0x1234 0x10)) := by decide
theorem decode_writereg :
    decode cfg0 ⟨.command, [0x01, 0x05, 0x03, 0x00, 0x23, 0x5A, 0x00, 0x86], 4⟩ =
      .ok (expand (.writereg 0x0023 0x5A 4)) := by decide
theorem decode_flush : decode cfg0 ⟨.send, [], 0⟩ = .ok (expand .flush) := by decide

/-- The encoder writes the spec's frames: V42, V49. -/
theorem encode_read : (encode cfg0 .four (.read 0xFF 0xFF 0xFF 9)).bytes =
    [0x01, 0x04, 0x03, 0xFF, 0xFF, 0xFF, 0x03, 0x05] := by decide
theorem encode_calibrate : (encode cfg0 .twelve (.calibrate 0)).bytes = [0x55, 0x0C, 0x00, 0x00, 0x61] := by decide

/-- The rows of the table with a fixed prefix, as table words. -/
theorem table_words :
    decodeTableWord 8 0xAA = some .sync ∧ decodeTableWord 24 0x010403 = some (.read 0 0 0 0) ∧
    decodeTableWord 24 0x010503 = some (.write 0 0 0 0) ∧ decodeTableWord 16 0x5504 = some (.calibrate 0) ∧
    decodeTableWord 16 0x601C = some (.configure 0) ∧ decodeTableWord 16 0x610C = some (.snapshot 0) ∧
    decodeTableWord 16 0x6204 = some (.keepalive 0) ∧ decodeTableWord 24 0xB000B0 = some .idle ∧
    decodeTableWord 8 0x81 = some (.respFull []) ∧ decodeTableWord 8 0x82 = some (.respShort 0) ∧
    decodeTableWord 8 0x7F = some (.respInvalid 0x7F []) ∧ decodeTableWord 16 0x5514 = none := by decide

/-- A placed word runs as the first instruction after reset: READ is refused outside a session, SYNC runs. -/
theorem fetch_read : after (step (State.reset.withFetchWord 24 0x010403)) (fun t => (t.result, t.inputs)) =
    some (.refused .badOperand, []) := by decide
theorem fetch_sync : after (step (State.reset.withFetchWord 8 0xAA)) (fun t => t.busy) = some false := by decide

/-- Outbound bytes that are no frame of a command go out as given, reversed (R64, R87). -/
theorem step_noFrame :
    after (step { base (quiets 3) [0x99] with inputs := [.call ⟨.command, [0x01, 0x06], 0⟩] })
      (fun t => (t.tx, t.result, t.rxq)) = some ([.byte 0x80, .byte 0x60], .ok, []) := by decide
/-- A short frame cut after its status byte arrives like any other bytes (R36). -/
theorem step_cutShortFrame :
    after (step { base [] [0x99] with inputs := [.call ⟨.line, [0x82], 0⟩] }) (fun t => (t.rxq, t.inputs)) =
    some ([0x99, 0x41], []) := by decide

/-! ### Pure functions -/

theorem test_rev8_V19 : after (exec (.rev8 0x12) (base [] [])) (fun t => t.reply) = some (.byte 0x48) := by decide
theorem test_csum16_V23 : after (exec (.csum16 [0xFF, 0xFF]) (base [] [])) (fun t => t.reply) = some (.word 0x01FE) := by
  decide
theorem test_accnext_V7 : after (exec (.accnext .twentyEight) (base [] [])) (fun t => t.reply) = some (.acc .four) := by
  decide
theorem test_trailer_V29 : trailer [0x01, 0x04, 0x03, 0x00, 0x11, 0x04] = [0x00, 0x1D] := by decide

/-! ### SYNC and IDLE -/

theorem test_sync_V71 :
    after (exec .sync (base (deviceAnswers 2 [0xAA] []) [0x13, 0x37]))
      (fun t => (t.tx, t.rbuf, t.syncState, t.result, t.rxq)) =
    some ([.lineReset, .byte 0x55], [0xAA], .synced, .ok, []) := by decide
theorem test_sync_V75b :
    after (exec .sync (base (quiets 3 ++ [⟨[0x41, 0x00], none, false⟩]) []))
      (fun t => (t.tx, t.rbuf, t.syncState, t.result, t.rxq)) =
    some ([.lineReset, .byte 0x55], [0x82], .unsynced, .failProtocol .badEcho, [0x00]) := by decide
theorem test_idle_V83 :
    after (exec .idle (base (quiets 4) [0x13])) (fun t => (t.tx, t.rlen, t.syncState, t.result, t.rxq)) =
    some ([.byte 0x0D, .byte 0x00, .byte 0x0D], 0, .unsynced, .ok, []) := by decide
theorem test_idle_V91 :
    after (exec .idle (inSession (EnvMove.quiet :: [⟨[], none, true⟩])))
      (fun t => (t.tx, t.syncState, t.result, t.rxq)) =
    some ([], .unsynced, .failTransport .txFail, []) := by decide

/-! ### TX, RX, FLUSH -/

theorem test_tx_V82a :
    after (exec (.tx [0x01, 0x02]) (base (quiets 3) [0x99])) (fun t => (t.tx, t.result, t.rxq)) =
    some ([.byte 0x80, .byte 0x40], .ok, []) := by decide
theorem test_tx_V81 :
    after (exec (.tx (List.replicate 33 0x00)) (base [] [0x99])) (fun t => (t.tx, t.result, t.rxq)) =
    some ([], .refused .badOperand, [0x99]) := by decide
theorem test_rx_V31 :
    after (exec (.rx 1) (base (quiets 2) [0x41, 0x00, 0x99])) (fun t => (t.rbuf, t.result, t.rxq)) =
    some ([0x82, 0x00], .ok, [0x99]) := by decide
theorem test_rx_V39 :
    after (exec (.rx 9) (base (quiets 9) [0x81, 0x00, 0x88, 0xA6])) (fun t => (t.rbuf, t.result, t.tx)) =
    some ([0x81, 0x00, 0x11, 0x65], .failTransport .rxShort, []) := by decide
theorem test_flush_V82 :
    after (exec .flush (base (quiets 1) [0x13])) (fun t => (t.tx, t.result, t.rxq)) = some ([], .ok, []) := by decide

/-! ### Inbound frames -/

theorem test_respFull : after (exec (.respFull [0x11]) (base [] [0x99])) (fun t => t.rxq) = some [0x99, 0x81, 0x88] := by
  decide
theorem test_respShort : after (exec (.respShort 0x07) (base [] [])) (fun t => t.rxq) = some [0x41, 0xE0] := by decide
theorem test_respInvalid :
    after (exec (.respInvalid 0x7F [0x00, 0x11]) (base [] [])) (fun t => t.rxq) = some [0xFE, 0x00, 0x88] := by decide

/-! ### Commands -/

theorem test_read_V86 :
    after (exec (.read 0x00 0x11 0x04 9) (inSession (deviceAnswers 8 goodAnswer (quiets 8))))
      (fun t => (t.tx, t.rbuf, t.result, t.syncState)) =
    some ([.byte 0x80, .byte 0x20, .byte 0xC0, .byte 0x00, .byte 0x88, .byte 0x20, .byte 0x00, .byte 0xB8],
      goodAnswer, .ok, .synced) := by decide
theorem test_read_V89 :
    after (exec (.read 0x00 0x11 0x04 9)
        { inSession (deviceAnswers 8 [0x81, 0x00, 0x11, 0x65, 0x52, 0xF1, 0x00, 0x02, 0x3B] (quiets 8)) with
          cfg := { cfg0 with rxCsumCheck := true } })
      (fun t => (t.rlen, t.result)) =
    some (9, .failProtocol .badSum) := by decide
theorem test_write_V45 :
    after (exec (.write 0x00 0x23 0x5A 0) (inSession (quiets 9))) (fun t => (t.tx, t.rbuf, t.result)) =
    some ([.byte 0x80, .byte 0xA0, .byte 0xC0, .byte 0x00, .byte 0xC4, .byte 0x5A, .byte 0x00, .byte 0x61], [0xAA],
      .ok) := by decide
theorem test_write_V82b :
    after (exec (.write 0x00 0x23 0x5A 0) (base [] [0x99])) (fun t => (t.tx, t.result, t.rxq)) =
    some ([], .refused .unsynced, [0x99]) := by decide
theorem test_calibrate_V90 :
    after (exec (.calibrate 5) (inSession (quiets 3 ++ [⟨[], none, true⟩])))
      (fun t => (t.tx, t.rbuf, t.acc, t.syncState, t.result)) =
    some ([.byte 0xAA, .byte 0x20], [0xAA], .twelve, .synced, .failTransport .txFail) := by decide
theorem test_calibrate_V65 :
    after (exec (.calibrate 3) (inSession (quiets 7))) (fun t => (t.acc, t.rlen, t.result)) =
    some (.twelve, 0, .failTransport .rxEmpty) := by decide
theorem test_configure_V52 :
    after (exec (.configure 0) { inSession (quiets 6) with acc := .twelve }) (fun t => (t.tx, t.acc, t.result)) =
    some ([.byte 0x06, .byte 0x30, .byte 0x00, .byte 0x00, .byte 0x36], .twelve, .ok) := by decide
theorem test_snapshot_V56 :
    after (exec (.snapshot 0) { inSession (quiets 6) with acc := .twentyEight }) (fun t => (t.tx, t.acc, t.result)) =
    some ([.byte 0x86, .byte 0x38, .byte 0x00, .byte 0x00, .byte 0xBE], .four, .ok) := by decide
theorem test_snapshot_V66 :
    after (exec (.snapshot 261) (inSession [])) (fun t => (t.tx, t.acc, t.result)) =
    some ([], .four, .refused .badOperand) := by decide
theorem test_keepalive_V59 :
    after (exec (.keepalive 0) { inSession (quiets 6) with acc := .twentyEight }) (fun t => (t.tx, t.acc, t.result)) =
    some ([.byte 0x46, .byte 0x38, .byte 0x00, .byte 0x00, .byte 0x7E], .twentyEight, .ok) := by decide
/-- READREG 0x0011, 4 sends V40's frame and reads 9 bytes (R68). -/
theorem test_readreg :
    after (exec (.readreg 0x0011 4) (inSession (deviceAnswers 8 goodAnswer (quiets 8))))
      (fun t => (t.tx.take 6, t.rsize, t.result)) =
    some ([.byte 0x80, .byte 0x20, .byte 0xC0, .byte 0x00, .byte 0x88, .byte 0x20], 9, .ok) := by decide
theorem test_writereg :
    after (exec (.writereg 0x0023 0x5A 0) (inSession (quiets 9))) (fun t => (t.tx.drop 3, t.result)) =
    some ([.byte 0x00, .byte 0xC4, .byte 0x5A, .byte 0x00, .byte 0x61], .ok) := by decide
/-- V82c: a request meets BUSY = 1. -/
theorem test_busy_V82c :
    after (exec (.read 0x00 0x11 0x04 9) midIdle) (fun t => (t.reply, t.result, t.idx, t.busy)) =
    some (.result (.refused .busy), .ok, 1, true) := by decide
/-- One tick of the Send loop: the second byte of the idle frame goes out (R34). -/
theorem test_tick :
    after (tick { midIdle with env := quiets 1 }) (fun t => (t.tx, t.idx, t.busy)) = some ([.byte 0x00], 2, true) := by
  decide

/-! ### Witnesses: the hypotheses of every statement can be met -/

theorem witness_Rev8ReversesTheBitsOfAByte : 7 < 8 ∧ (rev8 0x01).getLsbD 7 = true := by decide
theorem witness_Csum16IsTheSumOfTheBytesModulo65536 :
    (List.replicate 257 (0xFF : Byte)).length < 258 ∧ (List.replicate 30 (0xFF : Byte)).length ≤ 30 ∧
    ((List.replicate 257 (0xFF : Byte)).map BitVec.toNat).sum < 65536 := by
  simp only [List.length_replicate, List.map_replicate, List.sum_replicate, smul_eq_mul]
  decide
theorem witness_Csum16IgnoresOrderAndAddsOverConcatenation :
    List.Perm ([0x02, 0x01] : List Byte) [0x01, 0x02] ∧
    (0xFE : Byte).toNat + (0x01 : Byte).toNat < 256 ∧ (0x01 : Byte).toNat ≤ (0x01 : Byte).toNat := by decide
theorem witness_TrailerIsTheChecksumHighByteFirst : (List.replicate 30 (0xFF : Byte)).length ≤ 30 := by decide
theorem witness_AccNextCyclesThroughFourTwelveTwentyEight :
    2 < 3 ∧ Config.accSeq[2]? = some (accByte .twentyEight) ∧ Acc.twelve ≠ .twentyEight := by decide
theorem witness_DecodeOfEncodeIsTheInstruction :
    Instr.wf (.respInvalid 0x83 [0xFF]) = true ∧ Instr.wf (.readreg 0xFFFF 0xFF) = true := by decide
theorem witness_EncodedFramesBeginAsTheirTableRow :
    rowOf cfg0 (.snapshot 0) = some ⟨16, 0xFFE7, 0x6104⟩ ∧
    rowOf { cfg0 with idleTrailer := false } .idle = some ⟨8, 0xFF, 0xB0⟩ := by decide
theorem witness_NoFrameFitsTwoTableRows :
    rowOf cfg0 (.read 0 0 0 0) = some ⟨24, 0xFFFFFF, 0x010403⟩ ∧
    rowOf cfg0 (.readreg 0 0) = some ⟨24, 0xFFFFFF, 0x010403⟩ ∧
    Row.fits ⟨24, 0xFFFFFF, 0x010403⟩ [0x01, 0x04, 0x03] = true := by decide
theorem witness_ReservedEncodingsAreRejectedByName :
    (0x02 : Byte) ∉ ([0xAA, 0x01, 0x55, 0x60, 0x61, 0x62, 0xB0] : List Byte) ∧
    (0x03 : Byte) ≠ 0x04 ∧ (0x03 : Byte) ≠ 0x05 ∧ (0x62 : Byte) ∈ ([0x55, 0x60, 0x61, 0x62] : List Byte) ∧
    (0x14 : Byte) ∉ ([0x04, 0x0C, 0x1C] : List Byte) ∧
    ([0x00, 0x1C] : List Byte) ≠ trailer [0x01, 0x04, 0x03, 0x00, 0x11, 0x04] ∧
    ([0x00] : List Byte) ≠ trailer [0x01, 0x05, 0x03, 0x00, 0x23, 0x5A] ∧ ([0xB0] : List Byte) ≠ [0x00, 0xB0] ∧
    ([0x04, 0x03, 0x00, 0x11] : List Byte).length < 5 ∧ (0x1C : Byte) ∈ ([0x04, 0x0C, 0x1C] : List Byte) ∧
    ([0x01, 0x00, 0x59] : List Byte) ≠ cfg0.argsCal ++ trailer (0x55 :: 0x04 :: cfg0.argsCal) ∧
    ((0x62 : Byte), cfg0.argsKeep) ∈
      [((0x55 : Byte), cfg0.argsCal), (0x60, cfg0.argsConf), (0x61, cfg0.argsSnap), (0x62, cfg0.argsKeep)] := by
  decide
theorem witness_WordsOfTheSpecDecode : cfg0.argsCal = [0x00] := by decide
theorem witness_StepRunsTheDecodedInstruction :
    decode cfg0 ⟨.command, [0xAA], 0⟩ = .ok .sync ∧
    decode cfg0 ⟨.command, [0x02], 0⟩ = .error (.unknownOpcode 0x02) ∧
    decode cfg0 ⟨.line, [0x82], 0⟩ = .error .badLength ∧ decode cfg0 ⟨.accnext, [0x14], 0⟩ = .error (.badAcc 0x14) ∧
    { base [] [] with inputs := [.call ⟨.command, [0xAA], 0⟩, .tick] }.inputs = .call ⟨.command, [0xAA], 0⟩ :: [.tick] ∧
    (base [] []).inputs = [] ∧ (base [] []).busy = false := by decide
theorem witness_inv_idle : (base [] []).Inv := ⟨⟨by decide, by decide, by decide, by decide⟩, rfl, rfl, by decide⟩
theorem witness_inv_sending : midIdle.Inv := ⟨⟨by decide, by decide, by decide, by decide⟩, rfl, rfl, by decide⟩
theorem witness_inv_receiving : midReceive.Inv :=
  ⟨⟨by decide, by decide, by decide, by decide⟩, rfl, rfl, by decide⟩
/-- Also the hypothesis of EveryStepKeepsCfgAndExtendsTheTrace. -/
theorem witness_EveryStepKeepsTheInvariant : isNext (step midIdle) = true := by decide
theorem witness_LegalStatesNeverFault :
    step { base [] [] with inputs := [.call ⟨.accnext, [0x14], 0⟩] } = .refused (.undecodable (.badAcc 0x14)) ∧
    step { base [] [] with inputs := [.start ⟨.rev8, [], 0⟩] } = .refused (.undecodable .badLength) := ⟨rfl, rfl⟩
theorem witness_RequestsWhileBusyChangeNothing : midIdle.busy = true ∧ requestOf .flush ≠ none := by decide
theorem witness_OperandsOutOfRangeAreRefused :
    (base [] []).busy = false ∧ (base [] []).cfg.txbufMax < (List.replicate 33 (0x00 : Byte)).length ∧
    (base [] []).cfg.rbufMax < 261 ∧
    { cfg0 with rbufMax := 259 }.rbufMax < (0xFF : Byte).toNat + 5 := by decide
theorem witness_CommandsOutsideASessionAreRefused :
    (base [] []).busy = false ∧ (base [] []).syncState = .unsynced ∧
    requestOf (.readreg 0x0011 0xFF) = some { op := .read, ah := 0x00, al := 0x11, lv := 0xFF, rsize := 260 } ∧
    gated .read = true ∧
    badOperand cfg0 { op := .read, ah := 0x00, al := 0x11, lv := 0xFF, rsize := 260 } = false := by decide
/-- Also the hypotheses of OperationsTransmitTheirFrameReversed, StaleInputDoesNotReachSendingOperations and
TheSequencerRefinesTheAtomicOperation. -/
theorem witness_AdmittedRequestsRunToTheirReturn :
    admitted (.read 0x00 0x11 0x04 260) (inSession []) = true ∧ admitted (.rx 1) (base [] []) = true ∧
    admitted (.rx 0) (base [] []) = false ∧ admitted (.read 0x00 0x11 0x04 261) (inSession []) = false ∧ isNext (exec (.read 0x00 0x11 0x04 260) (inSession [])) = true := by decide
theorem witness_TransportOperationsWriteOnlyTheirFields :
    isNext (exec .flush (base [] [])) = true ∧ isNext (exec (.rx 260) (base [] [0x81])) = true ∧
    isNext (exec .idle (inSession [])) = true ∧ isNext (exec .sync (base [] [])) = true := by decide
/-- Also the hypotheses of CommandsReachTheLineOnlyInsideAWindow: this command puts 8 events on the line. -/
theorem witness_CommandsWriteOnlyTheirFields :
    requestOf (.write 0x00 0x23 0x5A 0) = some { op := .write, ah := 0x00, al := 0x23, lv := 0x5A, rsize := 0 } ∧
    gated .write = true ∧
    after (exec (.write 0x00 0x23 0x5A 0) (inSession (quiets 9))) (fun t => t.tx.length) = some 8 := by decide
theorem witness_TheEnvironmentCannotSteerWhatIsSent :
    requestOf (.calibrate 0) = some { op := .calibrate } ∧ { cfg0 with txCanFail := false }.txCanFail = false ∧
    isNext (exec (.calibrate 0) { inSession [] with cfg := { cfg0 with txCanFail := false } }) = true ∧
    isNext (exec (.calibrate 0)
      { inSession [] with cfg := { cfg0 with txCanFail := false }, rxq := [0x99], env := quiets 2, freeClock := 7 }) =
      true := by decide
theorem witness_SyncWithItsEchoOpensTheSession :
    (base (deviceAnswers 2 [0xAA] []) []).busy = false ∧
    (base (deviceAnswers 2 [0xAA] []) []).env = deviceAnswers 2 [0xAA] [] := by decide
/-- Also the hypotheses of SyncOpensTheSessionExactlyOnTheEcho. -/
theorem witness_SyncReportsEachFailureAndShutsTheWindow :
    isNext (exec .sync (base (deviceAnswers 2 [0xAB] []) [])) = true ∧ (0xAB : Byte) ≠ 0xAA ∧
    isNext (exec .sync (base (deviceAnswers 2 [] []) [])) = true ∧
    isNext (exec .sync (base (quiets 2 ++ [⟨[], none, true⟩]) [])) = true ∧ cfg0.txCanFail = true := by decide
theorem witness_TxSendsItsBytesAndFlushes :
    (List.replicate 32 (0xFF : Byte)).length ≤ cfg0.txbufMax ∧
    (base (quiets 33) []).env = List.replicate ((List.replicate 32 (0xFF : Byte)).length + 1) EnvMove.quiet ++ [] ∧
    (base (quiets 33) []).busy = false := by decide
theorem witness_IdleSendsItsFrameAndShutsTheWindow :
    (base (quiets 4) []).busy = false ∧
    (base (quiets 4) []).env =
      List.replicate ((transmitted .idle (base (quiets 4) [])).length + 1) EnvMove.quiet ++ [] := by decide
/-- Both branches at their boundary: a short first byte, and a size of 1. -/
theorem witness_RxTakesExactlyTheBytesItIsDue :
    (base [] [0x41, 0xE0]).busy = false ∧ 1 ≤ cfg0.rbufMax ∧ (0x41 : Byte) = cfg0.shortRaw ∧
    1 ≤ ([0xE0] : List Byte).length ∧ (0x81 : Byte) ≠ cfg0.shortRaw ∧ 1 - 1 ≤ ([] : List Byte).length := by decide
theorem witness_RxReportsEmptyAndShortReads :
    (base (quiets 2) []).busy = false ∧ (base (quiets 2) []).env = List.replicate (1 + 1) EnvMove.quiet ++ [] ∧
    (base (quiets 2) []).rxq = [] ∧ (base (quiets 2) [0x81]).rxq = 0x81 :: [] := by decide
theorem witness_ArrivedFramesAreReadBackAndClassified :
    (base [] []).busy = false ∧ (base [] []).rxq = [] ∧ cfg0.shortRaw = 0x41 ∧
    ([0x00, 0x11] : List Byte).length + 1 ≤ { cfg0 with rbufMax := 3 }.rbufMax ∧ isNext (exec (.respFull []) (base [] [])) = true ∧
    isNext (exec (.respShort 0xFF) (base [] [])) = true ∧ Instr.wf (.respInvalid 0x41 []) = true ∧
    isNext (exec (.respInvalid 0x41 []) (base [] [])) = true := by decide
theorem witness_CommandsCompleteWithAFullResponse :
    requestOf (.calibrate 1) = some { op := .calibrate, rsize := 1 } ∧ gated .calibrate = true ∧
    (inSession (deviceAnswers 5 [0x81] [])).busy = false ∧ (inSession (deviceAnswers 5 [0x81] [])).syncState = .synced ∧
    badOperand cfg0 { op := .calibrate, rsize := 1 } = false ∧ cfg0.shortRaw = 0x41 ∧ cfg0.rxCsumCheck = false ∧
    rxSumOk (frame [0x81]) = true ∧
    (inSession (deviceAnswers 5 [0x81] [])).env =
      deviceAnswers (transmitted (.calibrate 1) (inSession (deviceAnswers 5 [0x81] []))).length [0x81] [] := by decide
theorem witness_SendOnlyCommandsComplete :
    requestOf (.writereg 0x0023 0x5A 0) = some { op := .write, ah := 0x00, al := 0x23, lv := 0x5A } ∧
    (inSession (quiets 9)).env =
      List.replicate ((transmitted (.writereg 0x0023 0x5A 0) (inSession (quiets 9))).length + 1) EnvMove.quiet ++ [] := by
  decide
/-- Witness of CommandsJudgeAnyAnswer: the due length on both sides. -/
theorem witness_CommandsJudgeAnyAnswer :
    requestOf (.read 0x00 0x11 0x04 9) = some { op := .read, ah := 0x00, al := 0x11, lv := 0x04, rsize := 9 } ∧
    badOperand cfg0 { op := .read, ah := 0x00, al := 0x11, lv := 0x04, rsize := 9 } = false ∧
    ([0x82, 0x07] : List Byte).head?.map rev8 = some cfg0.shortRaw ∧ goodAnswer.head?.map rev8 ≠ some cfg0.shortRaw ∧
    (inSession (deviceAnswers 8 [0x82, 0x07] (quiets 9))).env =
      deviceAnswers (transmitted (.read 0x00 0x11 0x04 9) (inSession [])).length [0x82, 0x07]
        (List.replicate 9 EnvMove.quiet ++ []) := by decide
/-- Every branch of its result: CALIBRATE 3 on the answers [], 81, 82 07, 7F 00 00, 81 00 80 and 81 00 81, the sum checked. -/
theorem witness_CommandsJudgeAnyAnswer_results :
    ([[], [0x81], [0x82, 0x07], [0x7F, 0x00, 0x00], [0x81, 0x00, 0x80], [0x81, 0x00, 0x81]] : List (List Byte)).map
      (fun resp => after (exec (.calibrate 3)
        { inSession (deviceAnswers 5 resp (quiets 3)) with cfg := { cfg0 with rxCsumCheck := true } }) (fun t => t.result)) =
    [some (.failTransport .rxEmpty), some (.failTransport .rxShort), some (.failProtocol .shortFrame),
      some (.failProtocol .badStatus), some (.failProtocol .badSum), some .ok] := by decide
theorem witness_EachResultRecordsWhatTheTableSays :
    admitted (.keepalive 1) (inSession []) = true ∧ isNext (exec (.keepalive 1) (inSession [])) = true ∧
    cfg0.shortRaw = 0x41 := by decide
theorem witness_TheReceiveCheckAcceptsExactlyTrueTrailers : (0x53 : Byte) ≠ 0x52 ∧ rxSumOk goodAnswer = true := by decide
theorem witness_StatusClassIsDecidedByTheFirstByte :
    (base (deviceAnswers 2 [0xAA] []) []).busy = false ∧
    after (exec .sync (base (deviceAnswers 2 [0xAA] []) [])) (fun t => t.result) = some .ok := by decide
theorem witness_CalibrateSnapshotAndReinitSyncAloneWriteTheCounter :
    admitted .sync { base [] [] with cfg := { cfg0 with accReinitOnSync := true } } = true ∧
    admitted (.calibrate 0) (inSession []) = true ∧ advances (.calibrate 0) = true ∧
    isNext (exec (.calibrate 0) (inSession [])) = true := by decide
theorem witness_TheCounterCountsAdmittedCalls :
    (inSession []).acc = .four ∧ (inSession []).cfg.accReinitOnSync = false ∧ Instr.sync ∉ [Instr.calibrate 0, .idle] ∧
    advancesIn [.calibrate 0] (inSession (quiets 6)) = 1 := by decide
theorem witness_OnlySyncAndIdleMoveTheWindow :
    isNext (exec .idle (inSession [])) = true ∧ (inSession []).busy = false ∧ Instr.rx 1 ≠ .sync ∧ Instr.rx 1 ≠ .idle ∧
    isNext (exec (.rx 1) midIdle) = true ∧ midIdle.busy = true := by decide
theorem witness_ChannelPrimitivesTouchOnlyTheChannel :
    (base (quiets 1) [0x81, 0x00]).rxq = 0x81 :: [0x00] ∧ (base (quiets 1) []).rxq = [] ∧
    (envMove (base (quiets 1) [])).arrive = [] := by decide
theorem witness_RecvTakesBytesInArrivalOrder :
    2 ≤ (base [] [0x81, 0x00]).rxq.length ∧ (recv 2 (base (quiets 2) [0x81])).1.length < 2 := by decide

end Sys2Proof.Tests
end

/-!
PROOFS of the statements about the state (10_state.md): STATUS_CLASS (R19) and the counter's range (R24).
-/

namespace Sys2Proof.Machine

/-! ### STATUS_CLASS, value by value (R19) -/

@[simp] theorem statusClass_nil : statusClass [] = .none := rfl

theorem statusClass_cons (b : Byte) (l : List Byte) :
    statusClass (b :: l) =
      if b = Config.stFull then .valid else if b = Config.stShort then .short else .invalid := rfl

theorem stShort_ne_stFull : Config.stShort ≠ Config.stFull := by decide

theorem statusClass_eq_none_iff (l : List Byte) : statusClass l = .none ↔ l = [] := by
  cases l with
  | nil => simp
  | cons b l => rw [statusClass_cons]; split_ifs <;> simp

theorem statusClass_eq_valid_iff (l : List Byte) : statusClass l = .valid ↔ l.head? = some Config.stFull := by
  cases l with
  | nil => simp
  | cons b l => rw [statusClass_cons]; split_ifs <;> simp [*, stShort_ne_stFull]

theorem statusClass_eq_short_iff (l : List Byte) : statusClass l = .short ↔ l.head? = some Config.stShort := by
  cases l with
  | nil => simp
  | cons b l => rw [statusClass_cons]; split_ifs <;> simp [*, stShort_ne_stFull.symm]

theorem statusClass_eq_invalid_iff (l : List Byte) :
    statusClass l = .invalid ↔
      l ≠ [] ∧ l.head? ≠ some Config.stFull ∧ l.head? ≠ some Config.stShort := by
  cases l with
  | nil => simp
  | cons b l => rw [statusClass_cons]; split_ifs <;> simp [*]

/-! ### RBUF after a SYNC -/

/-- A Send leaves RBUF alone (R34). -/
@[simp] theorem sendTxbuf_rbuf (s : State) : (sendTxbuf s).2.rbuf = s.rbuf := by
  obtain ⟨_, _, _, _, h⟩ := send_same s.txbuf s
  rw [sendTxbuf, h]

/-- SYNC succeeds only on its own byte come back, which then stands alone in RBUF (R86). -/
theorem runSync_rbuf_of_ok {s : State} (hok : (runSync s).1 = .ok) : (runSync s).2.rbuf = [Config.syncByte] := by
  rw [runSync_eq] at hok ⊢
  obtain ⟨-, -, -, -, -, ends⟩ := concludeSync_spec (sendTxbuf (syncPrologue s))
  have hempty : (sendTxbuf (syncPrologue s)).2.rbuf = [] := by rw [sendTxbuf_rbuf, syncPrologue_eq]
  obtain ⟨-, echo⟩ | ⟨fails, -⟩ | ⟨fails, -⟩ | ⟨fails, -⟩ := ends hempty
  · exact echo
  all_goals exact absurd (hok.symm.trans fails) (by simp)

/-- A SYNC on an idle engine is always admitted and runs to its return (R85, R86). -/
theorem exec_sync_of_idle {s : State} (hidle : s.busy = false) :
    exec .sync s =
      .next (retire (runSync (accept { op := .sync } s)).1 (runSync (accept { op := .sync } s)).2) := by
  have hadmit : admission { op := .sync } s = none :=
    admission_eq_none.mpr ⟨hidle, rfl, fun h => absurd h (by simp [gated])⟩
  rw [exec_request (r := { op := .sync }) rfl, perform_of_none hadmit]
  rfl

/-- Settles O42: each value of STATUS_CLASS by its own equivalence, and RBUF holds the echo alone after a SYNC that succeeded. -/
theorem statusClassIsDecidedByTheFirstByte : Obligations.StatusClassIsDecidedByTheFirstByte := by
  refine ⟨fun l => ?_, statusClass_nil, fun s t hidle hexec hok => ?_⟩
  · have nonempty : 1 ≤ l.length ↔ l ≠ [] := List.length_pos_iff
    have nonempty_of_head {b : Byte} (h : l.head? = some b) : 1 ≤ l.length :=
      List.length_pos_of_mem (List.mem_of_head? h)
    refine ⟨?_, ?_, ?_, ?_⟩
    · exact (statusClass_eq_none_iff l).trans List.length_eq_zero_iff.symm
    · exact (statusClass_eq_valid_iff l).trans (and_iff_right_of_imp nonempty_of_head).symm
    · exact (statusClass_eq_short_iff l).trans (and_iff_right_of_imp nonempty_of_head).symm
    · exact (statusClass_eq_invalid_iff l).trans (and_congr_left' nonempty.symm)
  · rw [exec_sync_of_idle hidle, Host.Outcome.next.injEq] at hexec
    subst hexec
    rw [retire_result] at hok
    rw [retire_rbuf, runSync_rbuf_of_ok hok]
    decide

/-! ### The counter's range (R24) -/

/-- The counter's byte is one of the sequence, whatever the counter (R11, R24). -/
theorem accByte_mem (a : Acc) : accByte a ∈ Config.accSeq := by cases a <;> decide

/-- The bits that every value of the counter shares (R24). -/
theorem accByte_fixedBits (a : Acc) :
    (accByte a).getLsbD 0 = false ∧ (accByte a).getLsbD 1 = false ∧ (accByte a).getLsbD 2 = true ∧
    (accByte a).getLsbD 5 = false ∧ (accByte a).getLsbD 6 = false ∧ (accByte a).getLsbD 7 = false := by
  cases a <;> decide

/-- Settles O46: the type of the counter has three elements, each with its byte in the sequence. -/
theorem theCounterIsOneOfItsThreeValues : Obligations.TheCounterIsOneOfItsThreeValues := by
  intro s
  obtain ⟨b0, b1, b2, b5, b6, b7⟩ := accByte_fixedBits s.acc
  obtain ⟨k, hk, hget⟩ := List.mem_iff_getElem.mp (accByte_mem s.acc)
  exact ⟨accByte_mem s.acc, ⟨k, hk, List.getElem?_eq_some_iff.mpr ⟨hk, hget⟩⟩,
    b0, b1, b2, b5, b6, b7, accByte_mem (accNext s.acc)⟩

end Sys2Proof.Machine

/-!
PROOFS of the statement about the pseudo-operations (30_encoding.md): READREG, WRITEREG and FLUSH (R68).
-/

namespace Sys2Proof.Machine

/-- What a request does depends on its request value alone, not on the row that wrote it (R67). -/
theorem exec_eq_of_requestOf_eq {i j : Instr} {r : Request} (hi : requestOf i = some r) (hj : requestOf j = some r)
    (s : State) : exec i s = exec j s :=
  (exec_request hi s).trans (exec_request hj s).symm

/-- TX with nothing in TXBUF is the ChanFlush that opens its Send, and cannot fail (R34, R87). -/
theorem runTx_of_txbuf_nil {s : State} (hempty : s.txbuf = []) : runTx s = (.ok, chanFlush s) := by
  simp [runTx, sendTxbuf, hempty, send, sendBytes]

/-- A FLUSH on an idle engine is always admitted and runs to its return (R68, R85). -/
theorem exec_flush_of_idle {s : State} (hidle : s.busy = false) :
    exec .flush s = .next (retire .ok (chanFlush (accept { op := .tx, bytes := [] } s))) := by
  have hadmit : admission { op := .tx, bytes := [] } s = none :=
    admission_eq_none.mpr ⟨hidle, by simp [badOperand], by simp [gated]⟩
  have hrun : runOf .tx (accept { op := .tx, bytes := [] } s) = (.ok, chanFlush _) :=
    runTx_of_txbuf_nil (s := accept { op := .tx, bytes := [] } s) rfl
  rw [exec_request (r := { op := .tx, bytes := [] }) rfl, perform_of_none hadmit, hrun]

/-- Settles O13: each pseudo-operation makes the request of its expansion, and a TX of nothing is its flush alone. -/
theorem pseudoOperationsAreTheirExpansions : Obligations.PseudoOperationsAreTheirExpansions := by
  intro s addr n v rsize
  have hreadreg := exec_eq_of_requestOf_eq (i := .readreg addr n)
    (j := .read (addr.extractLsb' 8 8) (addr.extractLsb' 0 8) n (n.toNat + 5)) rfl rfl s
  have hwritereg := exec_eq_of_requestOf_eq (i := .writereg addr v rsize)
    (j := .write (addr.extractLsb' 8 8) (addr.extractLsb' 0 8) v rsize) rfl rfl s
  have hflush := exec_eq_of_requestOf_eq (i := .flush) (j := .tx []) rfl rfl s
  exact ⟨hreadreg, hwritereg, hflush, fun hidle => ⟨_, exec_flush_of_idle hidle, by simp, by simp⟩⟩

end Sys2Proof.Machine

/-!
PROOFS of the statements about the datapath (40_datapath.md): REV8, CSUM16, TRAILER, FRAME and ACCNEXT.
-/

namespace Sys2Proof.Machine

/-! ### CSUM16 as a sum of naturals (R77) -/

@[simp] theorem csum16_nil : csum16 [] = 0 := rfl

/-- CSUM16 is the sum of the byte values modulo 2^16 (R77). -/
theorem csum16_toNat (l : List Byte) : (csum16 l).toNat = (l.map BitVec.toNat).sum % 65536 := by
  induction l with
  | nil => rfl
  | cons b l ih =>
    rw [csum16_cons, BitVec.toNat_add, BitVec.toNat_setWidth, ih, List.map_cons, List.sum_cons]
    omega

/-- Two lists whose byte values have the same sum have the same checksum. -/
theorem csum16_eq_of_sum_eq {l m : List Byte} (h : (l.map BitVec.toNat).sum = (m.map BitVec.toNat).sum) :
    csum16 l = csum16 m :=
  BitVec.eq_of_toNat_eq (by rw [csum16_toNat, csum16_toNat, h])

/-- A byte adds at most 255 to the sum. -/
theorem sum_toNat_le (l : List Byte) : (l.map BitVec.toNat).sum ≤ l.length * 255 := by
  have byte_le : ∀ x ∈ l.map BitVec.toNat, x ≤ 255 := by
    intro x hx
    obtain ⟨b, -, rfl⟩ := List.mem_map.mp hx
    exact Nat.le_of_lt_succ b.isLt
  simpa using List.sum_le_card_nsmul _ 255 byte_le

/-- The sum of fewer than 258 bytes fits in 16 bits (R77). -/
theorem sum_toNat_lt_of_length_lt {l : List Byte} (h : l.length < 258) : (l.map BitVec.toNat).sum < 65536 := by
  have := sum_toNat_le l
  omega

/-- A sum that fits in 16 bits does not wrap (R77). -/
theorem csum16_toNat_of_sum_lt {l : List Byte} (h : (l.map BitVec.toNat).sum < 65536) :
    (csum16 l).toNat = (l.map BitVec.toNat).sum := by
  rw [csum16_toNat, Nat.mod_eq_of_lt h]

/-- The checksum of at most 30 bytes, the longest body the engine builds (R77). -/
theorem csum16_toNat_le_of_length_le {l : List Byte} (h : l.length ≤ 30) : (csum16 l).toNat ≤ 0x1DE2 := by
  rw [csum16_toNat_of_sum_lt (sum_toNat_lt_of_length_lt (by omega))]
  have := sum_toNat_le l
  omega

theorem csum16_replicate (n : Nat) (b : Byte) : csum16 (List.replicate n b) = BitVec.ofNat 16 (n * b.toNat) :=
  BitVec.eq_of_toNat_eq (by simp [csum16_toNat])

/-- Settles O3: the sum by induction on the list; a byte is at most 255, so the bounds follow from the length. -/
theorem csum16IsTheSumOfTheBytesModulo65536 : Obligations.Csum16IsTheSumOfTheBytesModulo65536 := by
  refine ⟨csum16_toNat, csum16_nil, fun b => ?_, rfl, fun l => csum16_toNat_of_sum_lt,
    fun l => sum_toNat_lt_of_length_lt, fun l h => ⟨?_, csum16_toNat_le_of_length_le h⟩, ?_, ?_⟩
  · simp [csum16_cons]
  · exact csum16_toNat_of_sum_lt (sum_toNat_lt_of_length_lt (by omega))
  · rw [csum16_replicate]; rfl
  · rw [csum16_replicate]; rfl

/-! ### What CSUM16 misses (R78) -/

/-- The order of the bytes does not matter (R78). -/
theorem csum16_perm {l p : List Byte} (h : List.Perm p l) : csum16 p = csum16 l :=
  csum16_eq_of_sum_eq (h.map BitVec.toNat).sum_eq

/-- A zero byte put in anywhere is missed (R78). -/
theorem csum16_insert_zero (l m : List Byte) : csum16 (l ++ 0x00 :: m) = csum16 (l ++ m) :=
  csum16_eq_of_sum_eq (by simp)

/-- Two changes that balance are missed, where neither byte wraps (R78). -/
theorem csum16_balanced_changes (l m n : List Byte) {a b d : Byte} (ha : a.toNat + d.toNat < 256)
    (hb : d.toNat ≤ b.toNat) :
    csum16 (l ++ (a + d) :: m ++ (b - d) :: n) = csum16 (l ++ a :: m ++ b :: n) := by
  have hadd : (a + d).toNat = a.toNat + d.toNat := BitVec.toNat_add_of_lt ha
  have hsub : (b - d).toNat = b.toNat - d.toNat := BitVec.toNat_sub_of_le hb
  apply csum16_eq_of_sum_eq
  simp only [List.map_append, List.map_cons, List.sum_append, List.sum_cons, hadd, hsub]
  omega

/-- Settles O4: each change leaves the sum of the byte values as it was. -/
theorem csum16IgnoresOrderAndAddsOverConcatenation : Obligations.Csum16IgnoresOrderAndAddsOverConcatenation :=
  ⟨fun _ _ => csum16_perm, csum16_append, csum16_insert_zero,
    fun l m n _ _ _ ha hb => csum16_balanced_changes l m n ha hb⟩

/-! ### TRAILER (R79) -/

theorem hiByte_toNat (w : Word) : (hiByte w).toNat = w.toNat / 256 := by
  have := w.isLt
  simp only [hiByte, BitVec.extractLsb'_toNat, Nat.shiftRight_eq_div_pow]
  omega

theorem loByte_toNat (w : Word) : (loByte w).toNat = w.toNat % 256 := by
  simp [loByte]

/-- The two bytes of a word, read high byte first, are the word (R39). -/
theorem hiByte_mul_add_loByte (w : Word) : (hiByte w).toNat * 256 + (loByte w).toNat = w.toNat := by
  rw [hiByte_toNat, loByte_toNat]
  omega

/-- The high byte of the trailer of a body the engine builds (R79). -/
theorem hiByte_csum16_le {l : List Byte} (h : l.length ≤ 30) : (hiByte (csum16 l)).toNat ≤ 0x1D := by
  rw [hiByte_toNat]
  have := csum16_toNat_le_of_length_le h
  omega

/-- Settles O5: the trailer's bytes are the quotient and the remainder of the checksum by 256. -/
theorem trailerIsTheChecksumHighByteFirst : Obligations.TrailerIsTheChecksumHighByteFirst :=
  ⟨fun l => ⟨hiByte (csum16 l), loByte (csum16 l), rfl, hiByte_mul_add_loByte _, rfl, hiByte_csum16_le⟩,
    by decide, by decide⟩

/-! ### REV8 bit by bit (R75, R76) -/

/-- Bit k of the result is bit 7-k of the operand (R75). -/
theorem getLsbD_rev8 (b : Byte) {k : Nat} (hk : k < 8) : (rev8 b).getLsbD k = b.getLsbD (7 - k) := by
  simp only [rev8, BitVec.getLsbD_append, BitVec.getLsbD_extractLsb']
  interval_cases k <;> simp

/-- The bytes that are their own reversal are the palindromes: four free bits, hence 16 of them (R75). -/
theorem rev8_eq_self_iff (b : Byte) : rev8 b = b ↔
    b ∈ ([0x00, 0x18, 0x24, 0x3C, 0x42, 0x5A, 0x66, 0x7E, 0x81, 0x99, 0xA5, 0xBD, 0xC3, 0xDB, 0xE7, 0xFF] :
      List Byte) := by
  revert b; decide

/-- Settles O1: the bitwise law, and all 256 bytes looked at for the list of fixed ones. -/
theorem rev8ReversesTheBitsOfAByte : Obligations.Rev8ReversesTheBitsOfAByte :=
  ⟨fun b _ hk => getLsbD_rev8 b hk, by decide, by decide, by decide, by decide, by decide, rev8_eq_self_iff⟩

/-- A byte with the operand's bits in reverse order is the operand's reversal. -/
theorem rev8_eq_of_getLsbD {a b : Byte} (h : ∀ k < 8, a.getLsbD (7 - k) = b.getLsbD k) : rev8 a = b :=
  BitVec.eq_of_getLsbD_eq fun k hk => (getLsbD_rev8 a hk).trans (h k hk)

theorem rev8_or (a b : Byte) : rev8 (a ||| b) = rev8 a ||| rev8 b :=
  rev8_eq_of_getLsbD fun k hk => by simp only [BitVec.getLsbD_or, getLsbD_rev8 _ hk]

theorem rev8_and (a b : Byte) : rev8 (a &&& b) = rev8 a &&& rev8 b :=
  rev8_eq_of_getLsbD fun k hk => by simp only [BitVec.getLsbD_and, getLsbD_rev8 _ hk]

theorem rev8_xor (a b : Byte) : rev8 (a ^^^ b) = rev8 a ^^^ rev8 b :=
  rev8_eq_of_getLsbD fun k hk => by simp only [BitVec.getLsbD_xor, getLsbD_rev8 _ hk]

/-- The complement is at the 8 positions of a byte, and `7 - k` is one of them as `k` is. -/
theorem rev8_not (b : Byte) : rev8 (~~~b) = ~~~(rev8 b) :=
  rev8_eq_of_getLsbD fun k hk => by
    have hk' : 7 - k < 8 := by omega
    simp only [BitVec.getLsbD_not, getLsbD_rev8 _ hk, hk, hk']

/-- The positions of a byte from the highest down. -/
theorem map_seven_sub_range : (List.range 8).map (7 - ·) = (List.range 8).reverse := by decide

/-- REV8 keeps the number of set bits: it reads the same positions in the opposite order (R76). -/
theorem bitCount_rev8 (b : Byte) :
    ((List.range 8).filter fun k => (rev8 b).getLsbD k).length =
      ((List.range 8).filter fun k => b.getLsbD k).length := by
  simp only [← List.countP_eq_length_filter]
  calc (List.range 8).countP (fun k => (rev8 b).getLsbD k)
      = (List.range 8).countP (fun k => b.getLsbD (7 - k)) :=
        List.countP_congr fun k hk => by rw [getLsbD_rev8 b (List.mem_range.mp hk)]
    _ = ((List.range 8).map (7 - ·)).countP (fun k => b.getLsbD k) := by rw [List.countP_map]; rfl
    _ = (List.range 8).countP (fun k => b.getLsbD k) := by rw [map_seven_sub_range, List.countP_reverse]

/-- 0x01 + 0x01: the carry moves up one position before the reversal and down one after it (R76). -/
theorem rev8_add_ne : rev8 (0x01 + 0x01) ≠ rev8 0x01 + rev8 0x01 := by decide

/-- Settles O2: everything that acts on each bit alone passes through the bitwise law; addition carries. -/
theorem rev8IsAnInvolutionThatPermutesBits : Obligations.Rev8IsAnInvolutionThatPermutesBits :=
  ⟨rev8_rev8, Function.Involutive.bijective rev8_rev8,
    fun a b => ⟨rev8_or a b, rev8_and a b, rev8_xor a b⟩, rev8_not, bitCount_rev8, 0x01, 0x01, rev8_add_ne⟩

/-! ### ACCNEXT (R80) -/

/-- A byte stands for a counter value exactly if it is that value's byte (R80). -/
theorem accOfByte_eq_some_iff {b : Byte} {a : Acc} : accOfByte b = some a ↔ accByte a = b := by
  constructor
  · unfold accOfByte
    intro h
    split_ifs at h with h4 h12 h28
    all_goals cases h
    exacts [h4.symm, h12.symm, h28.symm]
  · rintro rfl
    exact accOfByte_accByte a

/-- The bytes of the counter's values are the sequence (R11). -/
theorem exists_accByte_eq_iff {b : Byte} : (∃ a, accByte a = b) ↔ b ∈ Config.accSeq := by
  constructor
  · rintro ⟨a, rfl⟩
    exact accByte_mem a
  · intro h
    simp only [Config.accSeq, List.mem_cons, List.not_mem_nil, or_false] at h
    obtain rfl | rfl | rfl := h
    exacts [⟨.four, rfl⟩, ⟨.twelve, rfl⟩, ⟨.twentyEight, rfl⟩]

theorem accOfByte_eq_none_iff {b : Byte} : accOfByte b = none ↔ b ∉ Config.accSeq := by
  simp only [Option.eq_none_iff_forall_ne_some, ne_eq, accOfByte_eq_some_iff, ← exists_accByte_eq_iff, not_exists]

/-- Below the last value ACCNEXT shifts a further 1 in above bit 2 (R80). -/
theorem accByte_accNext {a : Acc} (h : a ≠ .twentyEight) : accByte (accNext a) = (accByte a <<< 1) ||| 4 := by
  cases a with
  | four => rfl
  | twelve => rfl
  | twentyEight => exact absurd rfl h

theorem accNext_cycle (a : Acc) : accNext (accNext (accNext a)) = a := by cases a <;> rfl

/-- ACCNEXT steps through ACC_SEQ, whose entry names the counter, and from its last entry to its first (R80). -/
theorem accSeq_succ {a : Acc} {k : Nat} (hk : k < 3) (h : Config.accSeq[k]? = some (accByte a)) :
    Config.accSeq[(k + 1) % 3]? = some (accByte (accNext a)) := by
  have hbyte : Config.accSeq[k]?.bind accOfByte = some a := by rw [h]; exact accOfByte_accByte a
  interval_cases k
  · obtain rfl : Acc.four = a := Option.some.inj hbyte
    rfl
  · obtain rfl : Acc.twelve = a := Option.some.inj hbyte
    rfl
  · obtain rfl : Acc.twentyEight = a := Option.some.inj hbyte
    rfl

/-- Settles O6: the domain by the three bytes of the counter, the rest value by value. -/
theorem accNextCyclesThroughFourTwelveTwentyEight : Obligations.AccNextCyclesThroughFourTwelveTwentyEight := by
  refine ⟨rfl, rfl, rfl, rfl, rfl, rfl, fun b => ?_, fun b => accOfByte_eq_none_iff, fun a => accByte_accNext,
    accNext_cycle, fun a k => accSeq_succ⟩
  simp only [accOfByte_eq_some_iff, and_self]
  exact exists_accByte_eq_iff

end Sys2Proof.Machine

/-!
PROOFS of the statements about frames and their encodings (30_encoding.md): the decoder, the encoder and the opcode table.
-/

namespace Sys2Proof

open Machine

/-! ### Decoding an encoded instruction -/

/-- What an instruction expands to (R68), all constructors at once. -/
theorem expands (i : Instr) : Laws.Expands.Statement i := by
  cases i with
  | readreg addr n => exact Laws.Expands.readreg addr n
  | writereg addr v rsize => exact Laws.Expands.writereg addr v rsize
  | flush => exact Laws.Expands.flush
  | _ => exact ⟨id, rfl, rfl⟩

/-- A byte that is no status of a legal frame is the status of a RESP_INVALID (R63). -/
theorem decodeLine_invalid {st : Byte} (hst : st ≠ Config.stFull ∧ st ≠ Config.stShort) (rest : List Byte) :
    decodeLine (st :: rest) = .ok (.respInvalid st rest) := by
  simp only [decodeLine, if_neg hst.1, if_neg hst.2]

/-- The idle frame is read with its trailer and bare (R54). -/
theorem decodeCommand_encoded_idle (c : Cfg) :
    decodeCommand c (if c.idleTrailer then frame [Config.opIdle] else [Config.opIdle]) 0 = .ok .idle := by
  cases c.idleTrailer <;> rfl

/-- Decoding the image of an instruction that is its own expansion gives it back, row by row. -/
theorem decode_encodeCore (c : Cfg) (a : Acc) {i : Instr} (hwf : i.wf = true) (hcore : expand i = i) :
    decode c (encodeCore c a i) = .ok i := by
  cases i with
  | sync => rfl
  | read ah al len n => exact decodeGeneric_read ah al len n
  | write ah al val n => exact decodeGeneric_write ah al val n
  | calibrate n => exact decodeAccFrame_frame Config.opCalibrate a c.argsCal (.calibrate n)
  | configure n => exact decodeAccFrame_frame Config.opConfigure a c.argsConf (.configure n)
  | snapshot n => exact decodeAccFrame_frame Config.opSnapshot a c.argsSnap (.snapshot n)
  | keepalive n => exact decodeAccFrame_frame Config.opKeepalive a c.argsKeep (.keepalive n)
  | idle => exact decodeCommand_encoded_idle c
  | respFull rest => rfl
  | respShort t => rfl
  | respInvalid st rest => exact decodeLine_invalid (by simpa [Instr.wf] using hwf) rest
  | tx l => rfl
  | rx n => rfl
  | rev8 b => rfl
  | csum16 l => rfl
  | accnext x => cases x <;> rfl
  | readreg addr n => cases hcore
  | writereg addr v n => cases hcore
  | flush => cases hcore

/-- Settles O8: an image is that of the expansion, which is well formed and its own expansion. -/
theorem decodeOfEncodeIsTheInstruction : Obligations.DecodeOfEncodeIsTheInstruction := by
  intro c a i hwf
  obtain ⟨expansion_wf, expansion_core, -⟩ := expands i
  exact decode_encodeCore c a (expansion_wf hwf) expansion_core

/-! ### The rows of the opcode table -/

/-- A row looks at the bytes of its fixed part alone. -/
theorem Row.fits_append {r : Row} {head : List Byte} (hlen : head.length = r.width / 8) (rest : List Byte) :
    r.fits (head ++ rest) = r.fits head := by
  simp [Row.fits, ← hlen]

/-- An ACC frame begins with its opcode and a counter value, of which the row fixes the bits that all three share (R53). -/
theorem Row.fits_accFrame {op : Byte} {r : Row} (hwidth : 2 = r.width / 8)
    (hfits : ∀ a, r.fits [op, accByte a] = true) (a : Acc) (args : List Byte) :
    r.fits (frame (op :: accByte a :: args)) = true :=
  (Row.fits_append (head := [op, accByte a]) hwidth (args ++ trailer (op :: accByte a :: args))).trans (hfits a)

/-- A generic frame begins with its opcode and its marker bytes, which its row fixes (R52). -/
theorem Row.fits_genericFrame {m0 m1 : Byte} {pattern : Nat}
    (hfits : Row.fits ⟨24, 0xFFFFFF, pattern⟩ [Config.opGeneric, m0, m1] = true) (ah al lv : Byte) :
    Row.fits ⟨24, 0xFFFFFF, pattern⟩ (frame [Config.opGeneric, m0, m1, ah, al, lv]) = true :=
  (Row.fits_append (head := [Config.opGeneric, m0, m1]) (by simp)
    (ah :: al :: lv :: trailer [Config.opGeneric, m0, m1, ah, al, lv])).trans hfits

/-- An encoded instruction begins as its row: the fixed part of the frame is written out, row by row. -/
theorem rowOf_fits_encodeCore (c : Cfg) (a : Acc) {i : Instr} {r : Row} (hrow : rowOf c i = some r)
    (hcore : expand i = i) : r.fits (encodeCore c a i).bytes = true := by
  cases i <;> simp only [rowOf, Option.some.injEq, reduceCtorEq] at hrow <;> subst hrow
  case sync => exact (by decide : Row.fits ⟨8, 0xFF, 0xAA⟩ [Config.syncByte] = true)
  case read ah al len n => exact Row.fits_genericFrame (by decide) ah al len
  case write ah al val n => exact Row.fits_genericFrame (by decide) ah al val
  case calibrate n => exact Row.fits_accFrame (by simp) (by intro a; cases a <;> decide) a c.argsCal
  case configure n => exact Row.fits_accFrame (by simp) (by intro a; cases a <;> decide) a c.argsConf
  case snapshot n => exact Row.fits_accFrame (by simp) (by intro a; cases a <;> decide) a c.argsSnap
  case keepalive n => exact Row.fits_accFrame (by simp) (by intro a; cases a <;> decide) a c.argsKeep
  case idle => simp only [encodeCore]; cases c.idleTrailer <;> decide
  case respFull rest => exact Row.fits_append (head := [0x81]) (by simp) rest
  case respShort t => exact Row.fits_append (head := [0x82]) (by simp) [t]
  case readreg => cases hcore
  case writereg => cases hcore

/-- A pseudo-operation's row is that of its expansion (R68). -/
theorem rowOf_expand {c : Cfg} {i : Instr} {r : Row} (hrow : rowOf c i = some r) : rowOf c (expand i) = some r := by
  cases i <;> exact hrow

/-- Settles O9: the image of an instruction is that of its expansion, and so is its row. -/
theorem encodedFramesBeginAsTheirTableRow : Obligations.EncodedFramesBeginAsTheirTableRow := by
  intro c a i r hrow
  obtain ⟨-, expansion_core, -⟩ := expands i
  exact rowOf_fits_encodeCore c a (rowOf_expand hrow) expansion_core

/-! ### The first byte of a frame names its row, but for READ and WRITE -/

theorem foldl_bigEndianNat (l : List Byte) (n : Nat) :
    l.foldl (fun n b => n * 256 + b.toNat) n = n * 256 ^ l.length + bigEndianNat l := by
  induction l generalizing n with
  | nil => simp [bigEndianNat]
  | cons b l ih =>
    simp only [bigEndianNat, List.foldl_cons, List.length_cons]
    rw [ih, ih (0 * 256 + b.toNat)]
    ring

theorem bigEndianNat_cons (b : Byte) (l : List Byte) :
    bigEndianNat (b :: l) = b.toNat * 256 ^ l.length + bigEndianNat l := by
  rw [bigEndianNat, List.foldl_cons, foldl_bigEndianNat, Nat.zero_mul, Nat.zero_add]

theorem bigEndianNat_lt (l : List Byte) : bigEndianNat l < 256 ^ l.length := by
  induction l with
  | nil => simp [bigEndianNat]
  | cons b l ih =>
    rw [bigEndianNat_cons, List.length_cons, pow_succ]
    have := b.isLt
    nlinarith

/-- The bits above the other bytes are the first byte. -/
theorem bigEndianNat_shiftRight (b : Byte) (l : List Byte) : bigEndianNat (b :: l) >>> (8 * l.length) = b.toNat := by
  have hpow : 2 ^ (8 * l.length) = 256 ^ l.length := by rw [pow_mul]; norm_num
  rw [Nat.shiftRight_eq_div_pow, hpow, bigEndianNat_cons, Nat.mul_comm,
    Nat.mul_add_div (by positivity), Nat.div_eq_of_lt (bigEndianNat_lt l), Nat.add_zero]

/-- The table's rows, READREG's and WRITEREG's being READ's and WRITE's. -/
def tableRows (c : Cfg) : List Row :=
  [⟨8, 0xFF, 0xAA⟩, ⟨24, 0xFFFFFF, 0x010403⟩, ⟨24, 0xFFFFFF, 0x010503⟩, ⟨16, 0xFFE7, 0x5504⟩, ⟨16, 0xFFE7, 0x6004⟩,
    ⟨16, 0xFFE7, 0x6104⟩, ⟨16, 0xFFE7, 0x6204⟩, if c.idleTrailer then ⟨24, 0xFFFFFF, 0xB000B0⟩ else ⟨8, 0xFF, 0xB0⟩,
    ⟨8, 0xFF, 0x81⟩, ⟨8, 0xFF, 0x82⟩]

theorem rowOf_mem_tableRows {c : Cfg} {i : Instr} {r : Row} (hrow : rowOf c i = some r) : r ∈ tableRows c := by
  cases i <;> simp only [rowOf, Option.some.injEq, reduceCtorEq] at hrow <;> subst hrow <;> simp [tableRows]

/-- The first byte of a row's fixed part. -/
def Row.opcode (r : Row) : Nat := r.pattern >>> (r.width - 8)

/-- Every row fixes all of its first byte (R62, R63). -/
theorem tableRows_fix_opcode (c : Cfg) :
    ∀ r ∈ tableRows c, 8 ∣ r.width ∧ 8 ≤ r.width ∧ r.mask >>> (r.width - 8) = 0xFF := by
  unfold tableRows
  cases c.idleTrailer <;> decide

/-- Rows with one first byte look at the same bits: they are one row, or READ's and WRITE's. -/
theorem tableRows_opcode_inj (c : Cfg) :
    ∀ r ∈ tableRows c, ∀ q ∈ tableRows c, r.opcode = q.opcode → r.width = q.width ∧ r.mask = q.mask := by
  unfold tableRows
  cases c.idleTrailer <;> decide

/-- A frame that fits a row has the row's first byte. -/
theorem Row.fits_opcode {c : Cfg} {r : Row} {bytes : List Byte} (hr : r ∈ tableRows c) (hfits : r.fits bytes = true) :
    ∃ b rest, bytes = b :: rest ∧ b.toNat = r.opcode := by
  obtain ⟨⟨k, hwidth⟩, hpos, hmask⟩ := tableRows_fix_opcode c r hr
  obtain ⟨k, rfl⟩ : ∃ j, k = j + 1 := ⟨k - 1, by omega⟩
  have hwidth' : r.width - 8 = 8 * k := by omega
  simp only [Row.fits, hwidth, Nat.mul_div_cancel_left _ (show 0 < 8 by decide), Bool.and_eq_true,
    decide_eq_true_eq, beq_iff_eq] at hfits
  obtain ⟨hlen, hpattern⟩ := hfits
  obtain - | ⟨b, rest⟩ := bytes
  · simp at hlen
  · have htake : (rest.take k).length = k := by simp at hlen ⊢; omega
    have hfirst := bigEndianNat_shiftRight b (rest.take k)
    refine ⟨b, rest, rfl, ?_⟩
    rw [Row.opcode, hwidth', ← hpattern, List.take_succ_cons, Nat.shiftRight_and_distrib, ← hwidth', hmask, hwidth']
    rw [htake] at hfirst
    rw [hfirst, Nat.and_two_pow_sub_one_of_lt_two_pow (n := 8) b.isLt]

/-- Settles O10: the first byte settles which bits a row looks at, and those bits are then the row's own. -/
theorem noFrameFitsTwoTableRows : Obligations.NoFrameFitsTwoTableRows := by
  intro c i j r q bytes hrow hrow' hfits hfits'
  have hr := rowOf_mem_tableRows hrow
  have hq := rowOf_mem_tableRows hrow'
  obtain ⟨b, rest, rfl, hb⟩ := Row.fits_opcode hr hfits
  obtain ⟨b', rest', heq, hb'⟩ := Row.fits_opcode hq hfits'
  obtain ⟨rfl, rfl⟩ := List.cons.inj heq
  obtain ⟨hwidth, hmask⟩ := tableRows_opcode_inj c r hr q hq (hb.symm.trans hb')
  have hpattern : r.pattern = q.pattern := by
    simp only [Row.fits, Bool.and_eq_true, beq_iff_eq] at hfits hfits'
    rw [← hfits.2, ← hfits'.2, hwidth, hmask]
  cases r; cases q
  simp_all

/-! ### What the decoder accepts and rejects of an outbound image (R51 to R62) -/

/-- The seven opcodes of R62. -/
def opcodes : List Byte := [0xAA, 0x01, 0x55, 0x60, 0x61, 0x62, 0xB0]

/-- A first byte that is no opcode (R62). -/
theorem decodeCommand_unknown (c : Cfg) {b : Byte} (hb : b ∉ opcodes) (rest : List Byte) (n : Nat) :
    decodeCommand c (b :: rest) n = .error (.unknownOpcode b) := by
  simp only [opcodes, List.mem_cons, List.not_mem_nil, or_false, not_or] at hb
  obtain ⟨hsync, hgeneric, hcal, hconf, hsnap, hkeep, hidle⟩ := hb
  simp only [decodeCommand, Config.syncByte, Config.opGeneric, Config.opCalibrate, Config.opConfigure,
    Config.opSnapshot, Config.opKeepalive, Config.opIdle, hsync, hgeneric, hcal, hconf, hsnap, hkeep, hidle, if_false]

theorem decodeCommand_sync (c : Cfg) (rest : List Byte) (n : Nat) :
    decodeCommand c (0xAA :: rest) n = if rest = [] then .ok .sync else .error .badLength := rfl

/-! #### Generic frames (R52) -/

theorem decodeGeneric_short {rest : List Byte} (h : rest.length < 5) (n : Nat) :
    decodeGeneric rest n = .error .badLength := by
  unfold decodeGeneric
  split
  · simp at h
    omega
  · rfl

theorem decodeGeneric_badMarker {m0 m1 : Byte} (h : m1 ≠ Config.mark1 ∨ (m0 ≠ Config.mark0Read ∧ m0 ≠ Config.mark0Write))
    (ah al lv : Byte) (t : List Byte) (n : Nat) :
    decodeGeneric (m0 :: m1 :: ah :: al :: lv :: t) n = .error (.badMarker m0 m1) := by
  unfold decodeGeneric
  exact if_neg (by tauto)

/-- The instruction a generic frame with legal markers stands for. -/
def genericInstr (m0 ah al lv : Byte) (n : Nat) : Instr :=
  if m0 = Config.mark0Read then .read ah al lv n else .write ah al lv n

/-- With legal markers the trailer decides (R52, R57). -/
theorem decodeGeneric_marked {m0 : Byte} (h : m0 = Config.mark0Read ∨ m0 = Config.mark0Write) (ah al lv : Byte)
    (t : List Byte) (n : Nat) :
    decodeGeneric (m0 :: Config.mark1 :: ah :: al :: lv :: t) n =
      if t = [] ∨ t = trailer [Config.opGeneric, m0, Config.mark1, ah, al, lv] then .ok (genericInstr m0 ah al lv n)
      else .error .badTrailer := by
  simp only [decodeGeneric, h, and_self, if_true, genericInstr]
  split_ifs <;> rfl

theorem decodeGeneric_ok_iff (rest : List Byte) (n : Nat) :
    (∃ i, decodeGeneric rest n = .ok i) ↔
      ∃ m0 ah al lv t, m0 ∈ [Config.mark0Read, Config.mark0Write] ∧ rest = m0 :: Config.mark1 :: ah :: al :: lv :: t ∧
        (t = [] ∨ t = trailer [Config.opGeneric, m0, Config.mark1, ah, al, lv]) := by
  constructor
  · rintro ⟨i, hok⟩
    unfold decodeGeneric at hok
    split at hok
    case h_1 m0 m1 ah al lv t =>
      split_ifs at hok with hmark ht
      all_goals obtain ⟨rfl, hm0⟩ := hmark; exact ⟨m0, ah, al, lv, t, by simpa using hm0, rfl, ht⟩
    case h_2 => cases hok
  · rintro ⟨m0, ah, al, lv, t, hm0, rfl, ht⟩
    exact ⟨_, (decodeGeneric_marked (by simpa using hm0) ah al lv t n).trans (if_pos ht)⟩

/-! #### ACC frames (R53) -/

/-- Opcode and argument bytes of the four ACC frames (R53, R61). -/
def accFrames (c : Cfg) : List (Byte × List Byte) :=
  [(0x55, c.argsCal), (0x60, c.argsConf), (0x61, c.argsSnap), (0x62, c.argsKeep)]

theorem decodeCommand_accFrame {c : Cfg} {op : Byte} {args : List Byte} (h : (op, args) ∈ accFrames c) (n : Nat) :
    ∃ i, ∀ rest, decodeCommand c (op :: rest) n = decodeAccFrame op args rest i := by
  simp only [accFrames, List.mem_cons, Prod.mk.injEq, List.not_mem_nil, or_false] at h
  obtain ⟨rfl, rfl⟩ | ⟨rfl, rfl⟩ | ⟨rfl, rfl⟩ | ⟨rfl, rfl⟩ := h
  · exact ⟨_, fun rest => decodeCommand_calibrate c rest n⟩
  · exact ⟨_, fun rest => decodeCommand_configure c rest n⟩
  · exact ⟨_, fun rest => decodeCommand_snapshot c rest n⟩
  · exact ⟨_, fun rest => decodeCommand_keepalive c rest n⟩

theorem decodeAccFrame_badAcc {a : Byte} (h : a ∉ Config.accSeq) (op : Byte) (args t : List Byte) (i : Instr) :
    decodeAccFrame op args (a :: t) i = .error (.badAcc a) :=
  if_pos (accOfByte_eq_none_iff.mpr h)

/-- With a legal counter byte the arguments and the trailer decide (R53, R57). -/
theorem decodeAccFrame_legal {a : Byte} (h : a ∈ Config.accSeq) (op : Byte) (args t : List Byte) (i : Instr) :
    decodeAccFrame op args (a :: t) i =
      if t = [] ∨ t = args ++ trailer (op :: a :: args) then .ok i else .error .badArgs :=
  if_neg (fun hnone => accOfByte_eq_none_iff.mp hnone h)

theorem decodeAccFrame_ok_iff (op : Byte) (args rest : List Byte) (i : Instr) :
    (∃ j, decodeAccFrame op args rest i = .ok j) ↔
      ∃ a t, a ∈ Config.accSeq ∧ rest = a :: t ∧ (t = [] ∨ t = args ++ trailer (op :: a :: args)) := by
  constructor
  · rintro ⟨j, hok⟩
    obtain - | ⟨a, t⟩ := rest
    · cases hok
    · by_cases ha : a ∈ Config.accSeq
      · rw [decodeAccFrame_legal ha] at hok
        split_ifs at hok with ht
        exact ⟨a, t, ha, rfl, ht⟩
      · rw [decodeAccFrame_badAcc ha] at hok
        cases hok
  · rintro ⟨a, t, ha, rfl, ht⟩
    exact ⟨i, (decodeAccFrame_legal ha op args t i).trans (if_pos ht)⟩

/-! #### All outbound images -/

/-- The outbound images that are frames, whole or without the bytes the engine supplies (R51 to R54; log 3). -/
def IsOutbound (c : Cfg) (bytes : List Byte) : Prop :=
  bytes = [0xAA] ∨
  (∃ m0 ah al lv t, m0 ∈ ([0x04, 0x05] : List Byte) ∧ bytes = 0x01 :: m0 :: 0x03 :: ah :: al :: lv :: t ∧
    (t = [] ∨ t = trailer [0x01, m0, 0x03, ah, al, lv])) ∨
  (∃ op args a t, (op, args) ∈ accFrames c ∧ a ∈ Config.accSeq ∧ bytes = op :: a :: t ∧
    (t = [] ∨ t = args ++ trailer (op :: a :: args))) ∨
  bytes = [0xB0] ∨ bytes = [0xB0, 0x00, 0xB0]

theorem trailer_idle : trailer [Config.opIdle] = [0x00, 0xB0] := by decide

theorem exists_decodeCommand_of_isOutbound {c : Cfg} {bytes : List Byte} (h : IsOutbound c bytes) (n : Nat) :
    ∃ i, decodeCommand c bytes n = .ok i := by
  obtain rfl | ⟨m0, ah, al, lv, t, hm0, rfl, ht⟩ | ⟨op, args, a, t, hop, ha, rfl, ht⟩ | rfl | rfl := h
  · exact ⟨.sync, rfl⟩
  · exact (decodeGeneric_ok_iff _ n).mpr ⟨m0, ah, al, lv, t, hm0, rfl, ht⟩
  · obtain ⟨i, hi⟩ := decodeCommand_accFrame hop n
    rw [hi]
    exact (decodeAccFrame_ok_iff op args _ i).mpr ⟨a, t, ha, rfl, ht⟩
  · exact ⟨.idle, rfl⟩
  · exact ⟨.idle, rfl⟩

/-- Of an opcode of an ACC frame nothing decodes but that ACC frame. -/
theorem isOutbound_of_accFrame {c : Cfg} {op : Byte} {args rest : List Byte} {n : Nat} {i : Instr}
    (hop : (op, args) ∈ accFrames c) (hok : decodeCommand c (op :: rest) n = .ok i) : IsOutbound c (op :: rest) := by
  obtain ⟨j, hj⟩ := decodeCommand_accFrame hop n
  rw [hj] at hok
  obtain ⟨a, t, ha, rfl, ht⟩ := (decodeAccFrame_ok_iff op args rest j).mp ⟨i, hok⟩
  exact .inr (.inr (.inl ⟨op, args, a, t, hop, ha, rfl, ht⟩))

theorem isOutbound_of_decodeCommand {c : Cfg} {bytes : List Byte} {n : Nat} {i : Instr}
    (hok : decodeCommand c bytes n = .ok i) : IsOutbound c bytes := by
  obtain - | ⟨b, rest⟩ := bytes
  · cases hok
  by_cases hb : b ∈ opcodes
  · simp only [opcodes, List.mem_cons, List.not_mem_nil, or_false] at hb
    obtain rfl | rfl | rfl | rfl | rfl | rfl | rfl := hb
    · rw [decodeCommand_sync] at hok
      split_ifs at hok with hrest
      exact .inl (by rw [hrest])
    · obtain ⟨m0, ah, al, lv, t, hm0, rfl, ht⟩ := (decodeGeneric_ok_iff rest n).mp ⟨i, hok⟩
      exact .inr (.inl ⟨m0, ah, al, lv, t, hm0, rfl, ht⟩)
    · exact isOutbound_of_accFrame (args := c.argsCal) (by simp [accFrames]) hok
    · exact isOutbound_of_accFrame (args := c.argsConf) (by simp [accFrames]) hok
    · exact isOutbound_of_accFrame (args := c.argsSnap) (by simp [accFrames]) hok
    · exact isOutbound_of_accFrame (args := c.argsKeep) (by simp [accFrames]) hok
    · rw [show (0xB0 : Byte) = Config.opIdle from rfl, decodeCommand_idle, trailer_idle] at hok
      split_ifs at hok with hrest
      obtain rfl | rfl := hrest
      · exact .inr (.inr (.inr (.inl rfl)))
      · exact .inr (.inr (.inr (.inr rfl)))
  · rw [decodeCommand_unknown c hb] at hok
    cases hok

/-- Settles O11: opcode by opcode, the forms the decoder accepts and its answer to every other. -/
theorem reservedEncodingsAreRejectedByName : Obligations.ReservedEncodingsAreRejectedByName := by
  intro c n
  refine ⟨rfl, fun b rest hb => decodeCommand_unknown c hb rest n,
    fun rest hrest => (decodeCommand_sync c rest n).trans (if_neg hrest),
    fun rest hlen => decodeGeneric_short hlen n,
    fun m0 m1 ah al lv t hmark => decodeGeneric_badMarker hmark ah al lv t n,
    fun ah al lv t hnil ht => (decodeGeneric_marked (.inl rfl) ah al lv t n).trans (if_neg (not_or.mpr ⟨hnil, ht⟩)),
    fun ah al lv t hnil ht => (decodeGeneric_marked (.inr rfl) ah al lv t n).trans (if_neg (not_or.mpr ⟨hnil, ht⟩)),
    fun op args hop => ?_,
    fun t hnil ht => (decodeCommand_idle c t n).trans (if_neg (not_or.mpr ⟨hnil, by rwa [trailer_idle]⟩)),
    fun bytes => ⟨fun ⟨i, hok⟩ => isOutbound_of_decodeCommand hok, fun h => exists_decodeCommand_of_isOutbound h n⟩⟩
  obtain ⟨i, hi⟩ := decodeCommand_accFrame hop n
  exact ⟨hi [], fun a t => ⟨fun ha => (hi (a :: t)).trans (decodeAccFrame_badAcc ha op args t i),
    fun ha hnil ht => ((hi (a :: t)).trans (decodeAccFrame_legal ha op args t i)).trans
      (if_neg (not_or.mpr ⟨hnil, ht⟩))⟩⟩

/-- Settles O12: each word is a whole frame, which is taken as its request. -/
theorem wordsOfTheSpecDecode : Obligations.WordsOfTheSpecDecode := by
  intro c
  refine ⟨rfl, decodeGeneric_read 0x00 0x11 0x04 9, decodeGeneric_write 0x00 0x23 0x5A 0, fun hargs => ?_, rfl, rfl⟩
  have hframe := decodeAccFrame_frame Config.opCalibrate .four c.argsCal (.calibrate 0)
  rw [hargs] at hframe
  exact (congrArg (fun args => decodeAccFrame Config.opCalibrate args _ _) hargs).trans hframe

end Sys2Proof

/-!
PROOFS of the statements about a step and power-on (10_state.md, 41_transport_ops.md section 1): what a step runs, what it
keeps, and that it never faults.
-/

namespace Sys2Proof.Machine

/-! ### What a step runs -/

section
variable {s : State} {img : Image} {rest : List Input}

theorem step_call_of_ok {i : Instr} (hin : s.inputs = .call img :: rest) (hdec : decode s.cfg img = .ok i) :
    step s = exec i { s with inputs := rest } := by
  simp only [step, hin, hdec]

theorem step_start_of_ok {i : Instr} (hin : s.inputs = .start img :: rest) (hdec : decode s.cfg img = .ok i) :
    step s = startInstr i { s with inputs := rest } := by
  simp only [step, hin, hdec]

theorem step_call_of_error {e : DecodeError} (hin : s.inputs = .call img :: rest)
    (hdec : decode s.cfg img = .error e) : step s = runUndecoded exec e img { s with inputs := rest } := by
  simp only [step, hin, hdec]

theorem step_start_of_error {e : DecodeError} (hin : s.inputs = .start img :: rest)
    (hdec : decode s.cfg img = .error e) : step s = runUndecoded startInstr e img { s with inputs := rest } := by
  simp only [step, hin, hdec]

theorem step_tick (hin : s.inputs = .tick :: rest) : step s = tick { s with inputs := rest } := by
  simp only [step, hin]

theorem step_of_nil (hin : s.inputs = []) : step s = tick s := by
  simp only [step, hin]

/-- With no operation in progress the engine waits (R130). -/
theorem tick_of_idle (hidle : s.busy = false) : tick s = .next s := by
  simp [tick, hidle]

/-- Outbound bytes that are no frame are sent by TX (R64, R87; log 30). -/
theorem runUndecoded_command (run : Instr → State → Host.Outcome State Fault Refusal) (e : DecodeError)
    (hport : img.port = .command) : runUndecoded run e img s = run (.tx img.bytes) s := by
  simp only [runUndecoded, hport]

/-- Inbound bytes that are no row arrive all the same (R36; log 27). -/
theorem runUndecoded_line (run : Instr → State → Host.Outcome State Fault Refusal) (e : DecodeError)
    (hport : img.port = .line) : runUndecoded run e img s = .next (arrive img.bytes s) := by
  simp only [runUndecoded, hport]

/-- A pure function outside its domain has no value (R75, R80; log 24). -/
theorem runUndecoded_refused (run : Instr → State → Host.Outcome State Fault Refusal) (e : DecodeError)
    (hcommand : img.port ≠ .command) (hline : img.port ≠ .line) :
    runUndecoded run e img s = .refused (.undecodable e) := by
  obtain ⟨h, -⟩ | ⟨h, -⟩ | ⟨-, -, h⟩ := runUndecoded_cases run e img s
  · exact absurd h hcommand
  · exact absurd h hline
  · exact h

end

/-- Settles O14: the arms of the step, and what is done with an image that decodes to nothing, by its port. -/
theorem stepRunsTheDecodedInstruction : Obligations.StepRunsTheDecodedInstruction := by
  intro s img rest
  refine ⟨fun i => step_call_of_ok, fun i => step_start_of_ok, fun e hin hdec hport => ?_, fun e hin hdec hport => ?_,
    fun e hin hdec hport => ?_, fun e hin hdec hcommand hline => ?_, step_tick, step_of_nil,
    fun hin hidle => (step_of_nil hin).trans (tick_of_idle hidle)⟩
  · exact (step_call_of_error hin hdec).trans (runUndecoded_command exec e hport)
  · exact (step_start_of_error hin hdec).trans (runUndecoded_command startInstr e hport)
  · obtain hin | hin := hin
    · exact (step_call_of_error hin hdec).trans (runUndecoded_line exec e hport)
    · exact (step_start_of_error hin hdec).trans (runUndecoded_line startInstr e hport)
  · obtain hin | hin := hin
    · exact (step_call_of_error hin hdec).trans (runUndecoded_refused exec e hcommand hline)
    · exact (step_start_of_error hin hdec).trans (runUndecoded_refused startInstr e hcommand hline)

/-- What a step can be: a tick, an instruction run or begun, an arrival, or the refusal of a pure function outside its
domain; all but the tick with no input pending take one input. -/
theorem step_cases (s : State) :
    (∃ rest, step s = tick { s with inputs := rest }) ∨
    (∃ i rest, step s = exec i { s with inputs := rest }) ∨
    (∃ i rest, step s = startInstr i { s with inputs := rest }) ∨
    (∃ l rest, step s = .next (arrive l { s with inputs := rest })) ∨
    ∃ e img rest, step s = .refused (.undecodable e) ∧ decode s.cfg img = .error e ∧
      (s.inputs = .call img :: rest ∨ s.inputs = .start img :: rest) ∧ img.port ≠ .command ∧ img.port ≠ .line := by
  cases hin : s.inputs with
  | nil => exact .inl ⟨[], by rw [step_of_nil hin, ← hin]⟩
  | cons input rest =>
    cases input with
    | tick => exact .inl ⟨rest, step_tick hin⟩
    | call img =>
      cases hdec : decode s.cfg img with
      | ok i => exact .inr (.inl ⟨i, rest, step_call_of_ok hin hdec⟩)
      | error e =>
        rw [step_call_of_error hin hdec]
        obtain ⟨-, h⟩ | ⟨-, h⟩ | ⟨hcommand, hline, h⟩ := runUndecoded_cases exec e img { s with inputs := rest }
        · exact .inr (.inl ⟨_, rest, h⟩)
        · exact .inr (.inr (.inr (.inl ⟨_, rest, h⟩)))
        · exact .inr (.inr (.inr (.inr ⟨e, img, rest, h, hdec, .inl rfl, hcommand, hline⟩)))
    | start img =>
      cases hdec : decode s.cfg img with
      | ok i => exact .inr (.inr (.inl ⟨i, rest, step_start_of_ok hin hdec⟩))
      | error e =>
        rw [step_start_of_error hin hdec]
        obtain ⟨-, h⟩ | ⟨-, h⟩ | ⟨hcommand, hline, h⟩ := runUndecoded_cases startInstr e img { s with inputs := rest }
        · exact .inr (.inr (.inl ⟨_, rest, h⟩))
        · exact .inr (.inr (.inr (.inl ⟨_, rest, h⟩)))
        · exact .inr (.inr (.inr (.inr ⟨e, img, rest, h, hdec, .inr rfl, hcommand, hline⟩)))

/-! ### What every step keeps (R18, R23, R38) -/

theorem inputs_extends (rest : List Input) (s : State) : Extends s { s with inputs := rest } := Extends.of rfl rfl rfl rfl

theorem arrive_extends (l : List Byte) (s : State) : Extends s (arrive l s) := Extends.of rfl rfl rfl rfl

/-- Settles O19: each thing a step can be keeps CFG, the events on TX and released line outputs. -/
theorem everyStepKeepsCfgAndExtendsTheTrace : Obligations.EveryStepKeepsCfgAndExtendsTheTrace := by
  intro s t hstep
  obtain ⟨rest, h⟩ | ⟨i, rest, h⟩ | ⟨i, rest, h⟩ | ⟨l, rest, h⟩ | ⟨e, img, rest, h, -⟩ := step_cases s <;>
    rw [h] at hstep
  · exact (inputs_extends rest s).trans (tick_extends hstep)
  · exact (inputs_extends rest s).trans (exec_extends hstep)
  · exact (inputs_extends rest s).trans (startInstr_extends hstep)
  · cases hstep
    exact (inputs_extends rest s).trans (arrive_extends l _)
  · cases hstep

/-! ### Power-on (R28) -/

/-- Settles O15: the values power-on names. -/
theorem powerOnLeavesTheStateOfTheResetTable : Obligations.PowerOnLeavesTheStateOfTheResetTable := by
  refine ⟨rfl, rfl, rfl, rfl, rfl, rfl, rfl, rfl, rfl, rfl, rfl, rfl, rfl, rfl, rfl, rfl⟩

/-- The free argument lists are cut so that every ACC frame fits TXBUF (R85; log 14). -/
theorem powerOnCfg_wf : Config.powerOnCfg.Wf := by
  have fits (l : List Byte) : (l.take 28).length + 4 ≤ 32 := by
    rw [List.length_take]
    omega
  exact ⟨by decide, by decide, fits _, fits _, fits _, fits _⟩

/-- Settles O16: the buffers are empty, the line outputs released, and no operation is in progress. -/
theorem powerOnMeetsTheInvariant : Obligations.PowerOnMeetsTheInvariant where
  buffers := ⟨powerOnCfg_wf, Nat.zero_le _, Nat.zero_le _, Nat.zero_le _⟩
  brk_low := rfl
  ctl_low := rfl
  position := by intro hbusy; cases hbusy

end Sys2Proof.Machine

/-!
PROOFS of the statements about the machine's invariant (10_state.md section 8, 41_transport_ops.md section 1): every step keeps
it, and no step from it faults.
-/

namespace Sys2Proof.Machine

/-! ### The invariant but for the sequencer's position -/

/-- `Inv` without its clause on PHASE and IDX. -/
structure State.Bounded (s : State) : Prop where
  buffers : s.BuffersOk
  brk_low : s.brk = false
  ctl_low : s.ctl = false

theorem State.Inv.bounded {s : State} (h : s.Inv) : s.Bounded := ⟨h.buffers, h.brk_low, h.ctl_low⟩

/-- The bounds read CFG, three lengths and the two line outputs alone. -/
theorem State.Bounded.of {s t : State} (h : s.Bounded) (hcfg : t.cfg = s.cfg) (hrbuf : t.rlen ≤ s.cfg.rbufMax)
    (htxbuf : t.txlen ≤ s.cfg.txbufMax) (hrsize : t.rsize ≤ s.cfg.rbufMax) (hbrk : t.brk = false)
    (hctl : t.ctl = false) : t.Bounded :=
  ⟨⟨hcfg ▸ h.buffers.cfg_wf, hcfg ▸ hrbuf, hcfg ▸ htxbuf, hcfg ▸ hrsize⟩, hbrk, hctl⟩

section
variable {s t : State} (h : s.Bounded)
include h

theorem State.Bounded.sameButChannel (k : SameButChannel s t) : t.Bounded := by
  obtain ⟨_, _, _, _, rfl⟩ := k
  exact h.of rfl h.buffers.rbuf_le h.buffers.txbuf_le h.buffers.rsize_le h.brk_low h.ctl_low

theorem State.Bounded.setRbuf {l : List Byte} (hl : l.length ≤ s.cfg.rbufMax) : (setRbuf l s).Bounded :=
  h.of rfl hl h.buffers.txbuf_le h.buffers.rsize_le h.brk_low h.ctl_low

theorem State.Bounded.setSeq (p : Phase) (k : Nat) : (setSeq p k s).Bounded :=
  h.of rfl h.buffers.rbuf_le h.buffers.txbuf_le h.buffers.rsize_le h.brk_low h.ctl_low

theorem State.Bounded.setSync (v : SyncState) : (setSync v s).Bounded :=
  h.of rfl h.buffers.rbuf_le h.buffers.txbuf_le h.buffers.rsize_le h.brk_low h.ctl_low

theorem State.Bounded.setAcc (a : Acc) : (setAcc a s).Bounded :=
  h.of rfl h.buffers.rbuf_le h.buffers.txbuf_le h.buffers.rsize_le h.brk_low h.ctl_low

/-- A frame build is bounded by the length of its frame (R13). -/
theorem State.Bounded.setFrame {l : List Byte} (hl : l.length ≤ s.cfg.txbufMax) (c : Word) : (setFrame l c s).Bounded :=
  h.of rfl h.buffers.rbuf_le hl h.buffers.rsize_le h.brk_low h.ctl_low

/-- After a return no operation is in progress, and the free TXBUF is cut to its capacity (R13, R25). -/
theorem State.Bounded.retire (r : Result) : (retire r s).Inv where
  buffers := ⟨h.buffers.cfg_wf, h.buffers.rbuf_le, List.length_take_le _ _, h.buffers.rsize_le⟩
  brk_low := h.brk_low
  ctl_low := h.ctl_low
  position := fun hbusy => by cases hbusy

theorem State.Bounded.finish (r : Result) : (finish r s).Inv := by
  unfold Machine.finish
  split
  · exact (h.setSync _).retire r
  · exact (h.setSync _).retire r
  · exact (h.setAcc _).retire r
  · exact (h.setAcc _).retire r
  all_goals exact h.retire r

theorem State.Bounded.received : (received s).Inv := by
  unfold Machine.received
  split <;> exact h.finish _

/-- Before a first channel read: an operation that reads, with a size of at least 1 (R86, R95). -/
theorem State.Bounded.setSeq_recvFirst (htx : s.op ≠ .tx) (hidle : s.op ≠ .idle) (hsize : s.op = .sync ∨ 1 ≤ s.rsize) :
    (Machine.setSeq .recvFirst 0 s).Inv where
  buffers := (h.setSeq _ _).buffers
  brk_low := h.brk_low
  ctl_low := h.ctl_low
  position := fun _ => by
    obtain hsync | hpos := hsize
    · simp [positionOk, hsync]
    · simp [positionOk, htx, hidle, hpos]

theorem State.Bounded.afterSend : (afterSend s).Inv := by
  unfold Machine.afterSend
  split
  case h_1 | h_2 | h_3 => exact h.finish .ok
  case h_4 hop => exact h.setSeq_recvFirst (by simp [hop]) (by simp [hop]) (.inl hop)
  all_goals
    rename_i hop
    split_ifs with hsize
    · exact h.finish .ok
    · exact h.setSeq_recvFirst (by simp [hop]) (by simp [hop]) (.inr (Nat.pos_of_ne_zero hsize))

/-- Before a byte of the Send loop. -/
theorem State.Bounded.setSeq_sending {k : Nat} (hop : s.op ≠ .rx) (hk : k < s.txlen) :
    (Machine.setSeq .sending k s).Inv where
  buffers := (h.setSeq _ _).buffers
  brk_low := h.brk_low
  ctl_low := h.ctl_low
  position := fun _ => by simp [positionOk, hop, hk]

/-- Before a later byte of the receive step. -/
theorem State.Bounded.setSeq_recvRest {k : Nat} (hop : s.op ≠ .tx ∧ s.op ≠ .idle ∧ s.op ≠ .sync) (hk : k < restDue s)
    (hlen : s.rlen = k + 1) : (Machine.setSeq .recvRest k s).Inv where
  buffers := (h.setSeq _ _).buffers
  brk_low := h.brk_low
  ctl_low := h.ctl_low
  position := fun _ => by
    obtain ⟨htx, hidle, hsync⟩ := hop
    have hdue : restDue (Machine.setSeq .recvRest k s) = restDue s := rfl
    simp [positionOk, htx, hidle, hsync, hdue, hk, hlen]

end

/-! ### One tick -/

/-- The receive step is due no more than RBUF holds (R14, R85). -/
theorem restLen_lt {c : Cfg} {n : Nat} (hc : c.Wf) (hn : n ≤ c.rbufMax) (w : Wire) : restLen c n w < c.rbufMax := by
  obtain ⟨two_le, -⟩ := hc
  unfold restLen
  split <;> omega

theorem restDue_lt {s : State} (h : s.Bounded) : restDue s < s.cfg.rbufMax := by
  unfold restDue
  split
  · exact Nat.lt_of_lt_of_le Nat.two_pos h.buffers.cfg_wf.1
  · exact restLen_lt h.buffers.cfg_wf h.buffers.rsize_le _

theorem State.Bounded.syncPrologue {s : State} (h : s.Bounded) : (syncPrologue s).Bounded := by
  obtain ⟨-, eight_le, -⟩ := h.buffers.cfg_wf
  have one_le : syncBody.length ≤ s.cfg.txbufMax := Nat.le_trans (by decide) eight_le
  rw [syncPrologue_eq]
  exact h.of rfl (Nat.zero_le _) one_le h.buffers.rsize_le rfl rfl

section
variable {s : State} (h : s.Bounded)
include h

theorem advanceFlush_inv (hop : s.op ≠ .rx) : (advanceFlush s).Inv := by
  have flushed : (chanFlush s).Bounded := h.sameButChannel (chanFlush_same s)
  unfold advanceFlush
  simp only
  split
  · exact (flushed.setSeq _ _).afterSend
  · rename_i hempty
    exact flushed.setSeq_sending hop (List.length_pos_iff.mpr hempty)

theorem advanceSending_inv (hop : s.op ≠ .rx) (b : Byte) : (advanceSending b s).Inv := by
  have acted : (envAct s).Bounded := h.sameButChannel (envAct_same s)
  have sent : (chanTxByte (rev8 b) (envAct s)).Bounded := acted.sameButChannel (chanTxByte_same _ _)
  unfold advanceSending
  split
  · exact acted.finish _
  · simp only
    split
    · rename_i hmore
      exact sent.setSeq_sending hop hmore
    · exact (sent.setSeq _ _).afterSend

theorem advanceEcho_inv : (advanceEcho s).Inv := by
  have hread := h.sameButChannel (chanRxByte_same s)
  unfold advanceEcho
  split
  case h_1 t heq =>
    rw [heq] at hread
    exact hread.finish _
  case h_2 w t heq =>
    rw [heq] at hread
    have one_le : ([rev8 w] : List Byte).length ≤ t.cfg.rbufMax := Nat.le_of_succ_le hread.buffers.cfg_wf.1
    unfold syncEcho
    split_ifs
    · exact ((hread.setRbuf one_le).setSync _).retire _
    · exact ((hread.setRbuf one_le).setSync _).retire _

theorem advanceFirst_inv (hop : s.op ≠ .tx ∧ s.op ≠ .idle ∧ s.op ≠ .sync) : (advanceFirst s).Inv := by
  have hsame := chanRxByte_same (setRbuf [] s)
  have hread := (h.setRbuf (Nat.zero_le _)).sameButChannel hsame
  unfold advanceFirst
  split
  case h_1 t heq =>
    rw [heq] at hread
    exact hread.finish _
  case h_2 w t heq =>
    rw [heq] at hread hsame
    have one_le : ([rev8 w] : List Byte).length ≤ t.cfg.rbufMax := Nat.le_of_succ_le hread.buffers.cfg_wf.1
    have kept : (setRbuf [rev8 w] t).Bounded := hread.setRbuf one_le
    have hop' : t.op = s.op := by obtain ⟨_, _, _, _, rfl⟩ := hsame; rfl
    simp only
    split_ifs with hdue
    · exact (kept.setSeq _ _).received
    · exact kept.setSeq_recvRest (by simpa [hop'] using hop) (Nat.pos_of_ne_zero hdue) rfl

theorem advanceRest_inv (hop : s.op ≠ .tx ∧ s.op ≠ .idle ∧ s.op ≠ .sync) (hidx : s.idx < restDue s)
    (hlen : s.rlen = s.idx + 1) : (advanceRest s).Inv := by
  have hsame := chanRxByte_same s
  have hread := h.sameButChannel hsame
  unfold advanceRest
  split
  case h_1 t heq =>
    rw [heq] at hread
    exact hread.finish _
  case h_2 w t heq =>
    rw [heq] at hread hsame
    obtain ⟨_, _, _, _, rfl⟩ := hsame
    have hlen' : (s.rbuf ++ [rev8 w]).length = s.idx + 1 + 1 := by simpa using hlen
    have kept := hread.setRbuf (l := s.rbuf ++ [rev8 w]) (by
      rw [hlen']
      have := restDue_lt h
      show s.idx + 1 + 1 ≤ s.cfg.rbufMax
      omega)
    simp only
    split
    · rename_i hmore
      exact kept.setSeq_recvRest hop hmore hlen'
    · exact (kept.setSeq _ _).received

end

/-- The operation in progress runs its next primitive, position by position of R25. -/
theorem advance_inv {s : State} (h : s.Inv) (hbusy : s.busy = true) : (advance s).Inv := by
  have hpos := h.position hbusy
  have hb := h.bounded
  unfold positionOk at hpos
  unfold advance
  cases hphase : s.phase <;> simp only [hphase] at hpos ⊢
  case lineReset =>
    have hop : s.op = .sync := by simpa using hpos
    have built := hb.syncPrologue
    have hop' : (syncPrologue s).op = .sync := by rw [syncPrologue_eq]; exact hop
    exact ⟨(built.setSeq _ _).buffers, built.brk_low, built.ctl_low, fun _ => by simp [positionOk, hop']⟩
  case flush => exact advanceFlush_inv hb (by simpa using hpos)
  case sending =>
    obtain ⟨hop, hidx⟩ : s.op ≠ .rx ∧ s.idx < s.txbuf.length := by simpa using hpos
    rw [List.getElem?_eq_getElem hidx]
    exact advanceSending_inv hb hop _
  case recvFirst =>
    split_ifs with hsync
    · exact advanceEcho_inv hb
    · have hop : s.op ≠ .tx ∧ s.op ≠ .idle := by
        simp only [Bool.and_eq_true, bne_iff_ne] at hpos
        exact hpos.1
      exact advanceFirst_inv hb ⟨hop.1, hop.2, hsync⟩
  case recvRest =>
    simp only [Bool.and_eq_true, bne_iff_ne, decide_eq_true_eq] at hpos
    obtain ⟨⟨⟨htx, hidle⟩, hsync⟩, hidx, hlen⟩ := hpos
    exact advanceRest_inv hb ⟨htx, hidle, hsync⟩ hidx hlen

theorem tick_inv {s t : State} (h : s.Inv) (htick : tick s = .next t) : t.Inv := by
  unfold tick at htick
  split_ifs at htick with hbusy hpos
  · cases htick
    exact advance_inv h hbusy
  · cases htick
    exact h

/-! ### A request -/

/-- The clauses of the invariant do not look at RXQ, TX, RESULT, the requester's answer, the pending inputs or the environment. -/
theorem State.Inv.of_same {s t : State} (h : s.Inv)
    (k : ∃ q x r y i e c, t = { s with rxq := q, tx := x, result := r, reply := y, inputs := i, env := e, freeClock := c }) :
    t.Inv := by
  obtain ⟨_, _, _, _, _, _, _, rfl⟩ := k
  exact ⟨⟨h.buffers.cfg_wf, h.buffers.rbuf_le, h.buffers.txbuf_le, h.buffers.rsize_le⟩, h.brk_low, h.ctl_low, h.position⟩

theorem refuse_inv {s : State} (h : s.Inv) (x : RefuseReason) : (refuse x s).Inv :=
  h.of_same ⟨_, _, _, _, _, _, _, refuse_same x s⟩

/-- An admitted request's operands fit their registers (R85 step 2). -/
theorem accept_bounded {s : State} {r : Request} (h : s.Bounded) (hbad : badOperand s.cfg r = false) :
    (accept r s).Bounded := by
  have htxbuf := h.buffers.txbuf_le
  have hrsize := h.buffers.rsize_le
  unfold accept load
  unfold badOperand at hbad
  cases hop : r.op <;> simp only [hop, Bool.not_eq_false', decide_eq_true_eq] at hbad ⊢
  case tx => exact h.of rfl h.buffers.rbuf_le hbad hrsize h.brk_low h.ctl_low
  case sync | idle => exact h.of rfl h.buffers.rbuf_le htxbuf hrsize h.brk_low h.ctl_low
  case rx | read => exact h.of rfl h.buffers.rbuf_le htxbuf hbad.2 h.brk_low h.ctl_low
  all_goals exact h.of rfl h.buffers.rbuf_le htxbuf hbad h.brk_low h.ctl_low

/-- A frame build leaves the bounds: CFG has room for every frame (R85). -/
theorem prepared_bounded {s : State} (h : s.Bounded) (op : OpKind) : (prepared op s).Bounded := by
  obtain ⟨-, eight_le, cal_le, conf_le, snap_le, keep_le⟩ := h.buffers.cfg_wf
  cases op <;> simp only [prepared, buildIdle, buildFrame_eq, placeBytes_eq]
  case sync => exact h.syncPrologue
  case tx | rx => exact h
  case idle => split <;> exact h.setFrame (by simp [idleBody]; omega) _
  case read | write => exact h.setFrame (by simpa [readBody, writeBody] using eight_le) _
  case calibrate => exact h.setFrame (by simpa [calibrateBody, accBody] using cal_le) _
  case configure => exact h.setFrame (by simpa [configureBody, accBody] using conf_le) _
  case snapshot => exact h.setFrame (by simpa [snapshotBody, accBody] using snap_le) _
  case keepalive => exact h.setFrame (by simpa [keepaliveBody, accBody] using keep_le) _

/-- After a run RBUF is within its capacity: the receive step reads no more than it is due (R14, R88). -/
theorem rxBody_bounded {s : State} (h : s.Bounded) {n : Nat} (hn : n ≤ s.cfg.rbufMax) : (rxBody n s).2.Bounded := by
  have hrbuf : (rxBody n s).2.rlen ≤ s.cfg.rbufMax := by
    obtain ⟨-, hempty⟩ | ⟨w, got, hgot, hlen, -⟩ := rxBody_cases n s
    · simp [State.rlen, hempty]
    · have := restLen_lt h.buffers.cfg_wf hn w
      simp only [State.rlen, hgot, List.length_cons, List.length_map]
      omega
  obtain ⟨_, _, _, _, _, hsame⟩ := rxBody_same n s
  rw [hsame] at hrbuf ⊢
  exact h.of rfl hrbuf h.buffers.txbuf_le h.buffers.rsize_le h.brk_low h.ctl_low

theorem concludeXfer_bounded {n : Nat} {p : Sent × State} (h : p.2.Bounded) (hn : n ≤ p.2.cfg.rbufMax) :
    (concludeXfer n p).2.Bounded := by
  unfold concludeXfer
  split
  · by_cases hzero : n = 0
    · subst hzero
      exact h
    · rw [xferReceive_eq hzero]
      exact rxBody_bounded h hn
  · exact h

theorem concludeSync_bounded {p : Sent × State} (h : p.2.Bounded) : (concludeSync p).2.Bounded := by
  have hread := h.sameButChannel (chanRxByte_same p.2)
  unfold concludeSync
  split
  · split
    case h_1 t heq =>
      rw [heq] at hread
      exact hread.setSync _
    case h_2 w t heq =>
      rw [heq] at hread
      have one_le : ([rev8 w] : List Byte).length ≤ t.cfg.rbufMax := Nat.le_of_succ_le hread.buffers.cfg_wf.1
      unfold syncEcho
      split
      · exact (hread.setRbuf one_le).setSync _
      · exact (hread.setRbuf one_le).setSync _
  · exact h.setSync _

/-- An operation run to its return leaves the bounds. -/
theorem runOf_bounded {s : State} (h : s.Bounded) (op : OpKind) : (runOf op s).2.Bounded := by
  by_cases hrx : op = .rx
  · subst hrx
    exact rxBody_bounded h h.buffers.rsize_le
  · have built := prepared_bounded h op
    have sent : (sendTxbuf (prepared op s)).2.Bounded := built.sameButChannel (send_same _ _)
    have hcfg : (sendTxbuf (prepared op s)).2.cfg = s.cfg :=
      ((prepared_extends op s).trans (send_extends _ _)).1
    have concluded := concludeXfer_bounded sent (hcfg.symm ▸ h.buffers.rsize_le)
    rw [runOf_eq hrx]
    cases op
    case rx => exact absurd rfl hrx
    case sync => exact concludeSync_bounded sent
    case tx => exact sent
    case idle => exact sent.setSync _
    case calibrate | snapshot => exact concluded.setAcc _
    all_goals exact concluded

/-- An instruction that is no request makes a frame arrive or hands the requester a value. -/
theorem exec_of_not_request {i : Instr} (hi : requestOf i = none) (s : State) :
    ∃ q y, exec i s = .next { s with rxq := q, reply := y } := by
  cases i with
  | respFull rest => exact ⟨_, _, rfl⟩
  | respShort t => exact ⟨_, _, rfl⟩
  | respInvalid st rest => exact ⟨_, _, rfl⟩
  | rev8 b => exact ⟨_, _, rfl⟩
  | csum16 l => exact ⟨_, _, rfl⟩
  | accnext a => exact ⟨_, _, rfl⟩
  | _ => cases hi

theorem exec_inv {s t : State} {i : Instr} (h : s.Inv) (hexec : exec i s = .next t) : t.Inv := by
  cases hi : requestOf i with
  | none =>
    obtain ⟨q, y, hq⟩ := exec_of_not_request hi s
    rw [hq] at hexec
    cases hexec
    exact h.of_same ⟨_, _, _, _, _, _, _, rfl⟩
  | some r =>
    rw [exec_request hi] at hexec
    cases hexec
    cases hadm : admission r s with
    | none =>
      rw [perform_of_none hadm]
      obtain ⟨-, hbad, -⟩ := admission_eq_none.mp hadm
      exact (runOf_bounded (accept_bounded h.bounded hbad) r.op).retire _
    | some x =>
      rw [perform_of_some hadm]
      exact refuse_inv h x

/-- The lines before the first primitive write TXBUF and CSUM at most. -/
theorem prepare_same (s : State) : ∃ x c, prepare s = { s with txbuf := x, csum := c } := by
  rw [prepare_eq]
  split
  · exact ⟨_, _, rfl⟩
  · rename_i hsync
    exact prepared_same hsync s

/-- An admitted RX reads at least one byte (R85). -/
theorem accept_rsize_pos {r : Request} {s : State} (hbad : badOperand s.cfg r = false) (hrx : (accept r s).op = .rx) :
    1 ≤ (accept r s).rsize := by
  rw [accept_op] at hrx
  have hsize : 1 ≤ r.rsize ∧ r.rsize ≤ s.cfg.rbufMax := by simpa [badOperand, hrx] using hbad
  simpa [accept, load, hrx] using hsize.1

/-- Entered before its first primitive, an admitted operation is at a position of its pseudocode (R25, R85). -/
theorem enter_inv {s : State} (h : s.Bounded) (hsize : s.op = .rx → 1 ≤ s.rsize) : (enter s).Inv := by
  have built : (prepare s).Bounded := by
    rw [prepare_eq]
    split
    · exact h
    · exact prepared_bounded h _
  refine ⟨(built.setSeq _ _).buffers, built.brk_low, built.ctl_low, fun _ => ?_⟩
  have hop : (prepare s).op = s.op ∧ (prepare s).rsize = s.rsize := by
    obtain ⟨_, _, hsame⟩ := prepare_same s
    rw [hsame]
    exact ⟨rfl, rfl⟩
  cases hs : s.op <;> simp [positionOk, enter, firstPhase, hs, hop]
  case rx => exact hsize hs

theorem beginRequest_inv {s : State} (h : s.Inv) (r : Request) : (beginRequest r s).Inv := by
  unfold beginRequest
  split
  · exact refuse_inv h _
  · rename_i hadm
    obtain ⟨-, hbad, -⟩ := admission_eq_none.mp hadm
    exact enter_inv (accept_bounded h.bounded hbad) (accept_rsize_pos hbad)

theorem startInstr_inv {s t : State} {i : Instr} (h : s.Inv) (hstart : startInstr i s = .next t) : t.Inv := by
  unfold startInstr at hstart
  split at hstart
  · cases hstart
    exact beginRequest_inv h _
  · exact exec_inv h hstart

/-! ### Every step -/

theorem inputs_inv {s : State} (h : s.Inv) (rest : List Input) : State.Inv { s with inputs := rest } :=
  h.of_same ⟨_, _, _, _, _, _, _, rfl⟩

/-- Settles O17: a tick by the positions of R25, a request by its admission, an arrival writes RXQ alone. -/
theorem everyStepKeepsTheInvariant : Obligations.EveryStepKeepsTheInvariant := by
  intro s t h hstep
  obtain ⟨rest, hs⟩ | ⟨i, rest, hs⟩ | ⟨i, rest, hs⟩ | ⟨l, rest, hs⟩ | ⟨e, img, rest, hs, -⟩ := step_cases s <;>
    rw [hs] at hstep
  · exact tick_inv (inputs_inv h rest) hstep
  · exact exec_inv (inputs_inv h rest) hstep
  · exact startInstr_inv (inputs_inv h rest) hstep
  · cases hstep
    exact (inputs_inv h rest).of_same ⟨_, _, _, _, _, _, _, rfl⟩
  · cases hstep

/-- At a legal position the sequencer advances (R25). -/
theorem tick_next {s : State} (h : s.Inv) : ∃ t, tick s = .next t := by
  unfold tick
  split_ifs with hbusy hpos
  · exact ⟨_, rfl⟩
  · exact absurd (h.position hbusy) hpos
  · exact ⟨_, rfl⟩

/-- A started request is begun or refused; every other instruction completes at once. -/
theorem startInstr_next (i : Instr) (s : State) : ∃ t, startInstr i s = .next t := by
  unfold startInstr
  split
  · exact ⟨_, rfl⟩
  · exact exec_next i s

/-- From a legal state a step answers a next state but for a pure function called outside its domain. -/
theorem step_next_or_refused {s : State} (h : s.Inv) :
    (∃ t, step s = .next t) ∨
    ∃ e img rest, step s = .refused (.undecodable e) ∧ decode s.cfg img = .error e ∧
      (s.inputs = .call img :: rest ∨ s.inputs = .start img :: rest) ∧
      ((img.port = .rev8 ∧ img.bytes.length ≠ 1) ∨ (img.port = .accnext ∧ ∀ a, img.bytes ≠ [accByte a])) := by
  obtain ⟨rest, hs⟩ | ⟨i, rest, hs⟩ | ⟨i, rest, hs⟩ | ⟨l, rest, hs⟩ | ⟨e, img, rest, hs, hdec, hin, hcommand, hline⟩ :=
    step_cases s
  · exact .inl (hs ▸ tick_next (inputs_inv h rest))
  · exact .inl (hs ▸ exec_next i _)
  · exact .inl (hs ▸ startInstr_next i _)
  · exact .inl ⟨_, hs⟩
  · obtain hport | hport | hport := decode_error_port hdec
    · exact absurd hport hcommand
    · exact absurd hport hline
    · exact .inr ⟨e, img, rest, hs, hdec, hin, hport⟩

/-- Settles O18: no arm of a step faults, and one arm refuses. -/
theorem legalStatesNeverFault : Obligations.LegalStatesNeverFault := by
  intro s h
  obtain ⟨t, hs⟩ | ⟨e, img, rest, hs, hdec, hin, hport⟩ := step_next_or_refused h <;> rw [hs]
  · exact ⟨by simp, fun _ => ⟨t, rfl⟩, by simp⟩
  · refine ⟨by simp, fun hr => absurd rfl (hr _), fun r hr => ?_⟩
    cases hr
    exact ⟨e, img, rest, rfl, hdec, hin, hport⟩

end Sys2Proof.Machine

/-!
PROOFS of the statements about admission (41_transport_ops.md section 1): which requests are refused, in which order of checks,
and that an admitted one runs to its return.
-/

namespace Sys2Proof.Machine

/-! ### The order of the checks (R85) -/

section
variable {r : Request} {s : State}

theorem admission_of_busy (hbusy : s.busy = true) : admission r s = some .busy := by
  simp [admission, hbusy]

theorem admission_of_badOperand (hidle : s.busy = false) (hbad : badOperand s.cfg r = true) :
    admission r s = some .badOperand := by
  simp [admission, hidle, hbad]

theorem admission_of_unsynced (hidle : s.busy = false) (hbad : badOperand s.cfg r = false) (hgated : gated r.op = true)
    (hshut : s.syncState = .unsynced) : admission r s = some .unsynced := by
  simp [admission, hidle, hbad, hgated, hshut]

/-- A command with its operands in range, inside a window, is admitted. -/
theorem admission_of_synced (hidle : s.busy = false) (hbad : badOperand s.cfg r = false)
    (hopen : s.syncState = .synced) : admission r s = none :=
  admission_eq_none.mpr ⟨hidle, hbad, fun _ => hopen⟩

/-- An operation that no window gates is admitted on its operands alone. -/
theorem admission_of_not_gated (hidle : s.busy = false) (hbad : badOperand s.cfg r = false)
    (hgated : gated r.op = false) : admission r s = none :=
  admission_eq_none.mpr ⟨hidle, hbad, fun h => absurd h (by simp [hgated])⟩

/-- A started request that fails a check is refused as a blocking one is (R85). -/
theorem refuse_startInstr {i : Instr} {x : RefuseReason} (hr : requestOf i = some r) (ha : admission r s = some x) :
    startInstr i s = .next (refuse x s) := by
  simp only [startInstr, hr, beginRequest, ha]

/-- An admitted request is its pseudocode and the return (R85 step 4). -/
theorem exec_of_admitted {i : Instr} (hr : requestOf i = some r) (ha : admission r s = none) :
    exec i s = .next (retire (runOf r.op (accept r s)).1 (runOf r.op (accept r s)).2) := by
  rw [exec_request hr, perform_of_none ha]

end

/-- Settles O20: BUSY is the first check, in both forms of a request. -/
theorem requestsWhileBusyChangeNothing : Obligations.RequestsWhileBusyChangeNothing := by
  intro s i hbusy hi
  obtain ⟨r, hr⟩ := Option.ne_none_iff_exists'.mp hi
  exact ⟨refuse_exec hr (admission_of_busy hbusy), refuse_startInstr hr (admission_of_busy hbusy)⟩

/-! ### Operand ranges (R85 step 2) -/

section
variable {c : Cfg} {r : Request}

theorem badOperand_tx (hop : r.op = .tx) : badOperand c r = true ↔ c.txbufMax < r.bytes.length := by
  simp [badOperand, hop]

/-- RX and READ must read something (R85, D15). -/
theorem badOperand_read (hop : r.op = .rx ∨ r.op = .read) :
    badOperand c r = true ↔ r.rsize = 0 ∨ c.rbufMax < r.rsize := by
  obtain hop | hop := hop <;> simp [badOperand, hop]

theorem badOperand_write
    (hop : r.op = .write ∨ r.op = .calibrate ∨ r.op = .configure ∨ r.op = .snapshot ∨ r.op = .keepalive) :
    badOperand c r = true ↔ c.rbufMax < r.rsize := by
  obtain hop | hop | hop | hop | hop := hop <;> simp [badOperand, hop]

end

/-- A request out of range is refused whatever the window is, since the operand check comes before the gate (R85). -/
theorem exec_of_badOperand {i : Instr} {r : Request} {s : State} (hr : requestOf i = some r) (hidle : s.busy = false)
    (hbad : badOperand s.cfg r = true) :
    exec i s = .next { s with result := .refused .badOperand, reply := .result (.refused .badOperand) } :=
  refuse_exec hr (admission_of_badOperand hidle hbad)

/-- Settles O21: each range of R85 step 2 from the outside. -/
theorem operandsOutOfRangeAreRefused : Obligations.OperandsOutOfRangeAreRefused := by
  intro s hidle
  refine ⟨fun l hl => exec_of_badOperand rfl hidle ((badOperand_tx rfl).mpr hl), fun n hn => ⟨?_, fun ah al len => ?_⟩,
    fun n i hn hi => ?_, fun addr n hn => ?_⟩
  · exact exec_of_badOperand rfl hidle ((badOperand_read (.inl rfl)).mpr hn)
  · exact exec_of_badOperand rfl hidle ((badOperand_read (.inr rfl)).mpr hn)
  · obtain ⟨ah, al, v, rfl⟩ | ⟨addr, v, rfl⟩ | rfl | rfl | rfl | rfl := hi <;>
      exact exec_of_badOperand rfl hidle ((badOperand_write (by simp)).mpr hn)
  · exact exec_of_badOperand rfl hidle ((badOperand_read (.inr rfl)).mpr (.inr hn))

/-- Settles O22: the gate is the last check. -/
theorem commandsOutsideASessionAreRefused : Obligations.CommandsOutsideASessionAreRefused := by
  intro s i r hidle hshut hr hgated hbad
  exact refuse_exec hr (admission_of_unsynced hidle hbad hgated hshut)

/-! ### What is admitted, and that it returns -/

theorem gated_iff (op : OpKind) : gated op = true ↔
    op = .read ∨ op = .write ∨ op = .calibrate ∨ op = .configure ∨ op = .snapshot ∨ op = .keepalive := by
  cases op <;> simp [gated]

theorem badOperand_eq_false_iff (c : Cfg) (r : Request) : badOperand c r = false ↔
    (r.op = .tx → r.bytes.length ≤ c.txbufMax) ∧
    ((r.op = .rx ∨ r.op = .read) → 1 ≤ r.rsize ∧ r.rsize ≤ c.rbufMax) ∧
    ((r.op = .write ∨ r.op = .calibrate ∨ r.op = .configure ∨ r.op = .snapshot ∨ r.op = .keepalive) →
      r.rsize ≤ c.rbufMax) := by
  unfold badOperand
  cases r.op <;> simp

theorem requestOf_eq_none_iff (i : Instr) : requestOf i = none ↔
    (∃ rest, i = .respFull rest) ∨ (∃ x, i = .respShort x) ∨ (∃ st rest, i = .respInvalid st rest) ∨
    (∃ b, i = .rev8 b) ∨ (∃ l, i = .csum16 l) ∨ ∃ a, i = .accnext a := by
  cases i <;> simp [requestOf]

/-- The receive step's own results are transport failures and OK (R88). -/
theorem rxBody_result (n : Nat) (s : State) :
    (rxBody n s).1 = .ok ∨ (rxBody n s).1 = .failTransport .rxEmpty ∨ (rxBody n s).1 = .failTransport .rxShort := by
  obtain ⟨h, -⟩ | ⟨w, got, -, -, h⟩ := rxBody_cases n s <;> rw [h]
  · simp
  · split <;> simp

/-- An operation that runs is not refused (R110). -/
theorem runOf_not_refused (op : OpKind) (s : State) (x : RefuseReason) : (runOf op s).1 ≠ .refused x := by
  by_cases hrx : op = .rx
  · subst hrx
    obtain h | h | h := rxBody_result s.rsize s
    all_goals exact fun hx => nomatch h.symm.trans hx
  · obtain ⟨-, -, h⟩ := conclude_spec op hrx s.acc s.rsize (sendTxbuf (prepared op s))
    rw [runOf_eq hrx]
    exact h x

/-- Settles O23: the checks by their definitions; an admitted request is its pseudocode and the return. -/
theorem admittedRequestsRunToTheirReturn : Obligations.AdmittedRequestsRunToTheirReturn := by
  refine ⟨gated_iff, badOperand_eq_false_iff, requestOf_eq_none_iff, fun s i r hr => ⟨?_, fun hadm => ?_⟩⟩
  · exact (admitted_iff hr s).trans admission_eq_none
  · exact ⟨_, exec_of_admitted hr ((admitted_iff hr s).mp hadm), rfl, rfl, fun x => runOf_not_refused r.op _ x⟩

end Sys2Proof.Machine

/-!
PROOFS of the statements about the frames of the instructions (10_state.md section 11): the fields each may write.
-/

namespace Sys2Proof.Machine

/-- Settles O7: the functions hand their value to the requester. -/
theorem pureFunctionsCompleteAndLeaveSUntouched : Obligations.PureFunctionsCompleteAndLeaveSUntouched :=
  fun _ => ⟨fun _ => rfl, fun _ => rfl, fun _ => rfl⟩

/-- Settles O26: the bytes of a frame cross reversed, its status byte among them. -/
theorem responseFramesArriveInTheQueue : Obligations.ResponseFramesArriveInTheQueue := by
  have hfull : rev8 Config.stFull = 0x81 := by decide
  have hshort : rev8 Config.stShort = 0x41 := by decide
  intro s
  refine ⟨fun rest => ?_, fun t => ?_, fun st rest => rfl⟩
  · simp only [exec, execRespFull, arrive, List.map_cons, hfull]
  · simp only [exec, execRespShort, arrive, List.map_cons, List.map_nil, hshort]

/-! ### The transport operations -/

/-- TX writes the channel alone (R87). -/
theorem runTx_same (s : State) : SameButChannel s (runTx s).2 := by
  rw [runTx_eq]
  exact send_same s.txbuf s

/-- RX writes RBUF and reads the channel (R88). -/
theorem runRx_same (s : State) : SameButReceive s (runRx s).2 := rxBody_same s.rsize s

/-- IDLE writes its frame, the channel and the window, which it shuts (R89). -/
theorem runIdle_same (s : State) :
    ∃ y k q x e c, (runIdle s).2 =
      { s with txbuf := y, csum := k, rxq := q, tx := x, env := e, freeClock := c, syncState := .unsynced } := by
  obtain ⟨y, k, hbuilt⟩ := prepared_same (op := .idle) (by simp) s
  obtain ⟨q, x, e, c, hsent⟩ := send_same (buildIdle s).txbuf (buildIdle s)
  refine ⟨y, k, q, x, e, c, ?_⟩
  rw [runIdle_eq]
  simp only [conclude, sendTxbuf, hsent]
  rw [show buildIdle s = _ from hbuilt]
  rfl

/-- SYNC writes its frame, the channel, RBUF, the line outputs, the window, and ACC where it is re-initialised (R86). -/
theorem runSync_same (s : State) :
    ∃ y k l v q x e c, (runSync s).2 =
      { s with
        txbuf := y, csum := k, rbuf := l, syncState := v, rxq := q, tx := x, env := e, freeClock := c, brk := false,
        ctl := false, acc := if s.cfg.accReinitOnSync then .four else s.acc } := by
  obtain ⟨q, x, e, c, hsent⟩ := send_same (syncPrologue s).txbuf (syncPrologue s)
  obtain ⟨-, -, -, ⟨l, v, q', x', e', c', hend⟩, -⟩ := concludeSync_spec (sendTxbuf (syncPrologue s))
  refine ⟨syncBody, csum16 syncBody, l, v, q', x', e', c', ?_⟩
  rw [runSync_eq, hend, sendTxbuf, hsent, syncPrologue_eq]
  rfl

/-- A request that is not admitted changes RESULT and the requester's answer at most (R85). -/
theorem exec_of_not_admitted {i : Instr} {r : Request} {s : State} (hr : requestOf i = some r)
    (hadm : admitted i s = false) :
    ∃ x y, exec i s = .next { s with result := x, reply := y } := by
  have hsome : admission r s ≠ none := fun h => by simp [(admitted_iff hr s).mpr h] at hadm
  obtain ⟨x, hx⟩ := Option.ne_none_iff_exists'.mp hsome
  exact ⟨_, _, (refuse_exec hr hx).trans (congrArg _ (refuse_same x s))⟩

theorem admitted_sync (s : State) : admitted .sync s = !s.busy := by
  cases hbusy : s.busy <;> simp [admitted, requestOf, admission, badOperand, gated, hbusy]

theorem admitted_idle (s : State) : admitted .idle s = !s.busy := by
  cases hbusy : s.busy <;> simp [admitted, requestOf, admission, badOperand, gated, hbusy]

/-- An instruction that is not admitted writes RXQ, RESULT and the requester's answer at most. -/
theorem exec_same_of_not_admitted {i : Instr} {s t : State} (hadm : admitted i s = false) (hexec : exec i s = .next t) :
    ∃ q x y, t = { s with rxq := q, result := x, reply := y } := by
  cases hr : requestOf i with
  | none =>
    obtain ⟨q, y, hq⟩ := exec_of_not_request hr s
    cases hexec.symm.trans hq
    exact ⟨_, _, _, rfl⟩
  | some r =>
    obtain ⟨x, y, hx⟩ := exec_of_not_admitted hr hadm
    cases hexec.symm.trans hx
    exact ⟨_, _, _, rfl⟩

/-- An admitted instruction runs its request's pseudocode and returns (R85 step 4). -/
theorem exec_same_of_admitted {i : Instr} {s t : State} (hadm : admitted i s = true) (hexec : exec i s = .next t) :
    ∃ r, requestOf i = some r ∧ admission r s = none ∧
      t = retire (runOf r.op (accept r s)).1 (runOf r.op (accept r s)).2 := by
  obtain ⟨r, hr, hnone⟩ := exists_request hadm
  cases hexec.symm.trans (exec_of_admitted hr hnone)
  exact ⟨r, hr, hnone, rfl⟩

/-- TX and FLUSH are one request (R68), with one frame. -/
theorem exec_tx_frame {s t : State} {i : Instr} {l : List Byte} (hr : requestOf i = some { op := .tx, bytes := l })
    (hexec : exec i s = .next t) :
    t = { s with
      op := if admitted i s = true then .tx else s.op, txbuf := t.txbuf, csum := t.csum, phase := t.phase, idx := t.idx,
      rxq := t.rxq, tx := t.tx, result := t.result, reply := t.reply, env := t.env, freeClock := t.freeClock } := by
  cases hadm : admitted i s with
  | false =>
    obtain ⟨_, _, _, rfl⟩ := exec_same_of_not_admitted hadm hexec
    rfl
  | true =>
    obtain ⟨r, hr', hnone, rfl⟩ := exec_same_of_admitted hadm hexec
    cases hr'.symm.trans hr
    obtain ⟨hidle, -⟩ := admission_eq_none.mp hnone
    obtain ⟨_, _, _, _, hsame⟩ := runTx_same (accept { op := .tx, bytes := l } s)
    simp only [runOf, hsame]
    simp [accept, load, retire, hidle]

theorem exec_rx_frame {s t : State} {n : Nat} (hexec : exec (.rx n) s = .next t) :
    t = { s with
      op := if admitted (.rx n) s = true then .rx else s.op
      rsize := if admitted (.rx n) s = true then n else s.rsize
      rbuf := t.rbuf, txbuf := t.txbuf, csum := t.csum, phase := t.phase, idx := t.idx, rxq := t.rxq
      result := t.result, reply := t.reply, env := t.env, freeClock := t.freeClock } := by
  cases hadm : admitted (.rx n) s with
  | false =>
    obtain ⟨_, _, _, rfl⟩ := exec_same_of_not_admitted hadm hexec
    rfl
  | true =>
    obtain ⟨r, hr, hnone, rfl⟩ := exec_same_of_admitted hadm hexec
    cases hr
    obtain ⟨hidle, -⟩ := admission_eq_none.mp hnone
    obtain ⟨_, _, _, _, _, hsame⟩ := runRx_same (accept { op := .rx, rsize := n } s)
    have htx : (runRx (accept { op := .rx, rsize := n } s)).2.tx = s.tx := rxBody_tx _ _
    simp only [runOf, hsame] at htx ⊢
    simp [accept, load, retire, hidle, htx]

theorem exec_idle_frame {s t : State} (hexec : exec .idle s = .next t) :
    t = { s with
      op := if s.busy then s.op else .idle, txbuf := t.txbuf, csum := t.csum, phase := t.phase, idx := t.idx
      rxq := t.rxq, tx := t.tx, syncState := if s.busy then s.syncState else .unsynced
      result := t.result, reply := t.reply, env := t.env, freeClock := t.freeClock } := by
  have hadm := admitted_idle s
  cases hbusy : s.busy <;> rw [hbusy] at hadm
  case true =>
    obtain ⟨_, _, _, rfl⟩ := exec_same_of_not_admitted hadm hexec
    simp [hbusy]
  case false =>
    obtain ⟨r, hr, -, rfl⟩ := exec_same_of_admitted hadm hexec
    cases hr
    obtain ⟨_, _, _, _, _, _, hsame⟩ := runIdle_same (accept { op := .idle } s)
    simp only [runOf, hsame]
    simp [accept, load, retire, hbusy]

theorem exec_sync_frame {s t : State} (hexec : exec .sync s = .next t) :
    t = { s with
      op := if s.busy then s.op else .sync, rbuf := t.rbuf, txbuf := t.txbuf, csum := t.csum, phase := t.phase
      idx := t.idx, rxq := t.rxq, tx := t.tx, syncState := t.syncState, brk := t.brk, ctl := t.ctl
      acc := if s.busy = false ∧ s.cfg.accReinitOnSync = true then .four else s.acc
      result := t.result, reply := t.reply, env := t.env, freeClock := t.freeClock } := by
  have hadm := admitted_sync s
  cases hbusy : s.busy <;> rw [hbusy] at hadm
  case true =>
    obtain ⟨_, _, _, rfl⟩ := exec_same_of_not_admitted hadm hexec
    simp [hbusy]
  case false =>
    obtain ⟨r, hr, -, rfl⟩ := exec_same_of_admitted hadm hexec
    cases hr
    obtain ⟨_, _, _, _, _, _, _, _, hsame⟩ := runSync_same (accept { op := .sync } s)
    simp only [runOf, hsame]
    simp [accept, load, retire, hbusy]

/-- Settles O24: the frame of each pseudocode, on the operand registers its request loads. -/
theorem transportOperationsWriteOnlyTheirFields : Obligations.TransportOperationsWriteOnlyTheirFields := by
  intro s t
  refine ⟨fun i hi hexec => ?_, fun n => exec_rx_frame, exec_idle_frame, exec_sync_frame⟩
  obtain rfl | ⟨l, rfl⟩ := hi
  · exact exec_tx_frame rfl hexec
  · exact exec_tx_frame rfl hexec

/-! ### The commands -/

/-- The instructions whose operation advances the counter are those that name it (R99, R101). -/
theorem advances_iff {i : Instr} {r : Request} (hr : requestOf i = some r) :
    advances i = true ↔ r.op = .calibrate ∨ r.op = .snapshot := by
  cases i <;> simp only [requestOf, Option.some.injEq, reduceCtorEq] at hr <;> subst hr <;> simp [advances]

/-- The operand registers a command loads (R12). -/
theorem accept_command {r : Request} (hgated : gated r.op = true) (s : State) :
    accept r s = { s with
      op := r.op, rsize := r.rsize, busy := true
      ah := if r.op = .read ∨ r.op = .write then r.ah else s.ah
      al := if r.op = .read ∨ r.op = .write then r.al else s.al
      lv := if r.op = .read ∨ r.op = .write then r.lv else s.lv } := by
  unfold accept load
  cases hop : r.op <;> simp [gated, hop] at hgated ⊢

/-- Settles O25: the frame of a command's pseudocode, on the operand registers its request loads. -/
theorem commandsWriteOnlyTheirFields : Obligations.CommandsWriteOnlyTheirFields := by
  intro s t i r hr hgated hexec
  cases hadm : admitted i s with
  | false =>
    obtain ⟨_, _, _, rfl⟩ := exec_same_of_not_admitted hadm hexec
    simp
  | true =>
    obtain ⟨_, hr', hnone, rfl⟩ := exec_same_of_admitted hadm hexec
    cases hr'.symm.trans hr
    obtain ⟨hidle, -⟩ := admission_eq_none.mp hnone
    obtain ⟨_, _, l, _, _, _, _, hsame, hzero⟩ := runOf_command_same hgated (accept r s)
    have hl : (if r.rsize = 0 then s.rbuf else l) = l := by
      split_ifs with h
      · rw [hzero (by simp [accept_command hgated, h]), accept_rbuf]
      · rfl
    simp only [hsame]
    simp [accept_command hgated, retire, hidle, advances_iff hr, hl]

end Sys2Proof.Machine

/-!
PROOFS of the statements about the counter and the window over whole runs (10_state.md sections 2 and 6): who writes ACC and
SYNC_STATE, and the counting law.
-/

namespace Sys2Proof.Machine

/-! ### Who writes the counter (R11) -/

/-- SYNC alone requests SYNC. -/
theorem op_eq_sync_iff {i : Instr} {r : Request} (hr : requestOf i = some r) : r.op = .sync ↔ i = .sync := by
  cases i <;> simp only [requestOf, Option.some.injEq, reduceCtorEq] at hr <;> subst hr <;> simp

/-- IDLE alone requests IDLE. -/
theorem op_eq_idle_iff {i : Instr} {r : Request} (hr : requestOf i = some r) : r.op = .idle ↔ i = .idle := by
  cases i <;> simp only [requestOf, Option.some.injEq, reduceCtorEq] at hr <;> subst hr <;> simp

/-- Settles O45: the counter of each pseudocode; nothing but an admitted request touches it. -/
theorem calibrateSnapshotAndReinitSyncAloneWriteTheCounter :
    Obligations.CalibrateSnapshotAndReinitSyncAloneWriteTheCounter := by
  intro s t i hexec
  cases hadm : admitted i s with
  | false =>
    obtain ⟨_, _, _, rfl⟩ := exec_same_of_not_admitted hadm hexec
    simp
  | true =>
    obtain ⟨r, hr, -, rfl⟩ := exec_same_of_admitted hadm hexec
    rw [retire_acc, runOf_acc, accept_acc, accept_cfg]
    simp only [← advances_iff hr, op_eq_sync_iff hr, true_and]

/-! ### The counting law (R81) -/

theorem accSeq_iterate (n : Nat) : Config.accSeq[n % 3]? = some (accByte (accNext^[n] .four)) := by
  induction n with
  | zero => rfl
  | succ n ih =>
    rw [Function.iterate_succ_apply', ← accSeq_succ (Nat.mod_lt n (by decide)) ih]
    congr 1
    omega

/-- Every run completes, and the counter has made one step for each admitted CALIBRATE and SNAPSHOT in it (R81). -/
theorem runAll_acc (l : List Instr) (s : State) (hsync : s.cfg.accReinitOnSync = true → Instr.sync ∉ l) :
    ∃ t, runAll l s = .next t ∧ t.acc = accNext^[advancesIn l s] s.acc := by
  induction l generalizing s with
  | nil => exact ⟨s, rfl, rfl⟩
  | cons i l ih =>
    obtain ⟨u, hu⟩ := exec_next i s
    have hacc := calibrateSnapshotAndReinitSyncAloneWriteTheCounter s u i hu
    have hcfg : u.cfg = s.cfg := (exec_extends hu).1
    have no_reinit : ¬(admitted i s = true ∧ i = .sync ∧ s.cfg.accReinitOnSync = true) :=
      fun ⟨_, hi, hreinit⟩ => hsync hreinit (by simp [hi])
    rw [if_neg no_reinit] at hacc
    obtain ⟨t, ht, hcount⟩ := ih u fun hreinit hmem => hsync (hcfg ▸ hreinit) (List.mem_cons_of_mem i hmem)
    refine ⟨t, by rw [runAll, hu, ← ht], ?_⟩
    simp only [advancesIn, hu, Bool.and_eq_true, And.comm (a := advances i = true)]
    rw [Nat.add_comm, Function.iterate_add_apply, hcount, hacc]
    split_ifs <;> rfl

/-- Settles O47: the counter after N steps from its first value is the sequence's element N mod 3. -/
theorem theCounterCountsAdmittedCalls : Obligations.TheCounterCountsAdmittedCalls := by
  intro l s hfour hsync
  obtain ⟨t, ht, hcount⟩ := runAll_acc l s hsync
  exact ⟨t, ht, by rw [hcount, hfour, accSeq_iterate]⟩

/-! ### Who moves the window (R20) -/

/-- No operation but SYNC and IDLE writes SYNC_STATE (R20, R95). -/
theorem runOf_syncState {op : OpKind} (hsync : op ≠ .sync) (hidle : op ≠ .idle) (a : State) :
    (runOf op a).2.syncState = a.syncState := by
  cases hgated : gated op with
  | true =>
    obtain ⟨_, _, _, _, _, _, _, hsame, -⟩ := runOf_command_same hgated a
    rw [hsame]
  | false =>
    cases op with
    | sync => exact absurd rfl hsync
    | idle => exact absurd rfl hidle
    | tx =>
      obtain ⟨_, _, _, _, hsame⟩ := runTx_same a
      rw [runOf, hsame]
    | rx =>
      obtain ⟨_, _, _, _, _, hsame⟩ := runRx_same a
      rw [runOf, hsame]
    | _ => cases hgated

/-- Settles O48: an operation by its pseudocode; what is not admitted writes no window. -/
theorem onlySyncAndIdleMoveTheWindow : Obligations.OnlySyncAndIdleMoveTheWindow := by
  intro s t i hexec
  have kept (hadm : admitted i s = false) : t.syncState = s.syncState := by
    obtain ⟨_, _, _, rfl⟩ := exec_same_of_not_admitted hadm hexec
    rfl
  refine ⟨fun hsync hidle => ?_, ?_, ?_, fun hbusy => kept ?_⟩
  · cases hadm : admitted i s with
    | false => exact kept hadm
    | true =>
      obtain ⟨r, hr, -, rfl⟩ := exec_same_of_admitted hadm hexec
      rw [retire_syncState, runOf_syncState (mt (op_eq_sync_iff hr).mp hsync) (mt (op_eq_idle_iff hr).mp hidle),
        accept_syncState]
  · rintro rfl hbusy
    have hframe := congrArg State.syncState (exec_idle_frame hexec)
    rwa [hbusy] at hframe
  · rintro rfl hbusy
    rw [exec_sync_of_idle hbusy] at hexec
    cases hexec
    obtain ⟨-, -, -, -, hopen, -⟩ := concludeSync_spec (sendTxbuf (syncPrologue (accept { op := .sync } s)))
    rw [retire_syncState, retire_result, runSync_eq]
    exact hopen
  · cases hr : requestOf i with
    | none => simp [admitted, hr]
    | some r => exact admitted_eq_false hr (admission_of_busy hbusy)

/-- Settles O49: a command that is not admitted puts nothing on the line, and one that is admitted passed the gate. -/
theorem commandsReachTheLineOnlyInsideAWindow : Obligations.CommandsReachTheLineOnlyInsideAWindow := by
  intro s t i r hr hgated hexec hsent
  cases hadm : admitted i s with
  | false =>
    obtain ⟨_, _, _, rfl⟩ := exec_same_of_not_admitted hadm hexec
    exact absurd rfl hsent
  | true =>
    obtain ⟨hidle, -, hgate⟩ := admission_eq_none.mp ((admitted_iff hr s).mp hadm)
    exact ⟨hgate hgated, hidle⟩

end Sys2Proof.Machine

/-!
PROOFS of the statements about what is transmitted (20_memory.md, 30_encoding.md section 2): the frame of each operation,
reversed; stale input and the environment have no say in it.
-/

namespace Sys2Proof.Machine

/-! ### The frame, or the part of it that was sent -/

/-- RX alone requests RX. -/
theorem eq_rx_of_op {i : Instr} {r : Request} (hr : requestOf i = some r) (hrx : r.op = .rx) : ∃ n, i = .rx n := by
  cases i <;> simp only [requestOf, Option.some.injEq, reduceCtorEq] at hr <;> subst hr <;> simp at hrx ⊢

/-- Settles O27: the frame stands in TXBUF when the Send starts, and what comes after the Send does not transmit. -/
theorem operationsTransmitTheirFrameReversed : Obligations.OperationsTransmitTheirFrameReversed := by
  intro s t i hadm hexec
  obtain ⟨r, hr, -, rfl⟩ := exec_same_of_admitted hadm hexec
  by_cases hrx : r.op = .rx
  · obtain ⟨n, rfl⟩ := eq_rx_of_op hr hrx
    have hresult : (runRx (accept r s)).1 ≠ .failTransport .txFail := by
      obtain h | h | h := rxBody_result (accept r s).rsize (accept r s) <;> simp [runRx, h]
    have htx : (runRx (accept r s)).2.tx = s.tx := by rw [runRx, rxBody_tx, accept_tx]
    rw [hrx]
    exact ⟨0, Nat.zero_le _, by simp [runOf, htx, wireImage], by simp [runOf, hresult, transmitted, expand],
      fun _ => rfl⟩
  · obtain ⟨hbefore, hcfg⟩ := prepared_tx hr s
    obtain ⟨hafter, hfailed, -⟩ := conclude_spec r.op hrx (accept r s).acc (accept r s).rsize
      (sendTxbuf (prepared r.op (accept r s)))
    obtain ⟨k, hk, hsent, hwhole, hnofail⟩ := send_tx (prepared r.op (accept r s)).txbuf (prepared r.op (accept r s))
    rw [prepared_txbuf hr hrx] at hk hsent hwhole hnofail
    simp only [sendTxbuf, prepared_txbuf hr hrx] at hafter hfailed
    refine ⟨k, hk, ?_, ?_, fun h => hnofail (hcfg ▸ h)⟩
    · rw [retire_tx, runOf_eq hrx, sendTxbuf, prepared_txbuf hr hrx, hafter, hsent, hbefore]
    · rw [retire_result, runOf_eq hrx, sendTxbuf, prepared_txbuf hr hrx, hfailed, ← Bool.not_eq_true, hwhole]
      omega

/-! ### Stale input (R46, R47) -/

/-- The flush that opens a Send drops whatever RXQ held (R31, R34). -/
theorem send_setRxq (l : List Byte) (q : List Wire) (s : State) : send l (setRxq q s) = send l s := rfl

theorem accept_setRxq (r : Request) (q : List Wire) (s : State) : accept r (setRxq q s) = setRxq q (accept r s) := by
  unfold accept load
  cases r.op <;> rfl

/-- The lines before a Send read no RXQ. -/
theorem prepared_setRxq (op : OpKind) (q : List Wire) (s : State) :
    ∃ q', prepared op (setRxq q s) = setRxq q' (prepared op s) := by
  cases op
  case sync => exact ⟨q ++ (envMove s).arrive, by simp only [prepared, syncPrologue_eq]; rfl⟩
  case tx | rx => exact ⟨q, rfl⟩
  case idle =>
    refine ⟨q, ?_⟩
    simp only [prepared, buildIdle, buildFrame_eq, placeBytes_eq, setRxq_cfg]
    split <;> rfl
  all_goals exact ⟨q, by simp only [prepared, buildFrame_eq]; rfl⟩

theorem runOf_setRxq {op : OpKind} (hop : op ≠ .rx) (q : List Wire) (s : State) :
    runOf op (setRxq q s) = runOf op s := by
  obtain ⟨q', hprepared⟩ := prepared_setRxq op q s
  rw [runOf_eq hop, runOf_eq hop, hprepared, sendTxbuf, sendTxbuf, send_setRxq]
  rfl

/-- Settles O28: a Send begins with a flush, and no line before it reads RXQ. -/
theorem staleInputDoesNotReachSendingOperations : Obligations.StaleInputDoesNotReachSendingOperations := by
  intro s i q hadm hi
  obtain ⟨r, hr, hnone⟩ := exists_request hadm
  have hsends : r.op ≠ .rx := fun hrx => by
    obtain ⟨n, hn⟩ := eq_rx_of_op hr hrx
    exact hi n hn
  have hstale := exec_of_admitted (s := setRxq q s) hr hnone
  rw [accept_setRxq, runOf_setRxq hsends] at hstale
  exact hstale.trans (exec_of_admitted hr hnone).symm

/-! ### The environment (R27, R36) -/

/-- Settles O29: where no Send can fail the whole frame goes out; the counter and the window are given by the state alone. -/
theorem theEnvironmentCannotSteerWhatIsSent : Obligations.TheEnvironmentCannotSteerWhatIsSent := by
  intro s t t' i r q e c hr hsafe hexec hexec'
  have hacc := calibrateSnapshotAndReinitSyncAloneWriteTheCounter _ _ _ hexec
  have hacc' := calibrateSnapshotAndReinitSyncAloneWriteTheCounter _ _ _ hexec'
  obtain ⟨hwindow, hidle, -, hbusy⟩ := onlySyncAndIdleMoveTheWindow _ _ _ hexec
  obtain ⟨hwindow', hidle', -, hbusy'⟩ := onlySyncAndIdleMoveTheWindow _ _ _ hexec'
  refine ⟨?_, hacc.trans hacc'.symm, fun hsync => ?_⟩
  · cases hadm : admitted i s with
    | false =>
      obtain ⟨_, _, _, rfl⟩ := exec_same_of_not_admitted hadm hexec
      obtain ⟨_, _, _, rfl⟩ :=
        exec_same_of_not_admitted (s := { s with rxq := q, env := e, freeClock := c }) hadm hexec'
      rfl
    | true =>
      obtain ⟨k, -, htx, -, hall⟩ := operationsTransmitTheirFrameReversed _ _ _ hadm hexec
      obtain ⟨k', -, htx', -, hall'⟩ := operationsTransmitTheirFrameReversed
        { s with rxq := q, env := e, freeClock := c } _ _ hadm hexec'
      rw [htx, htx', hall hsafe, hall' hsafe]
      rfl
  · by_cases hi : i = .idle
    · cases hb : s.busy with
      | false => exact (hidle hi hb).trans (hidle' hi hb).symm
      | true => exact (hbusy hb).trans (hbusy' hb).symm
    · exact (hwindow hsync hi).trans (hwindow' hsync hi).symm

end Sys2Proof.Machine

/-!
PROOFS of the statements about the channel, the frame builder and the sequencer (20_memory.md, 10_state.md sections 4 and 8).
-/

namespace Sys2Proof.Machine

/-! ### The channel primitives -/

/-- Settles O50: the environment appends its bytes and a primitive does its rule's part after it. -/
theorem channelPrimitivesTouchOnlyTheChannel : Obligations.ChannelPrimitivesTouchOnlyTheChannel := by
  intro s
  refine ⟨⟨(envMove s).arrive, rfl⟩, rfl, fun _ => rfl, fun w q hq => ⟨(envMove s).arrive, chanRxByte_of_cons hq⟩,
    fun hempty hquiet => ?_, ⟨(envMove s).arrive, rfl⟩⟩
  simp [chanRxByte, hempty, hquiet]

/-- A read that times out found the queue empty, after the environment's move and so before it (R33). -/
theorem chanRxByte_none {s t : State} (h : chanRxByte s = (none, t)) : t.rxq = [] ∧ s.rxq = [] := by
  unfold chanRxByte at h
  split at h
  · cases h
  · rename_i hempty
    obtain ⟨-, rfl⟩ := Prod.mk.inj h
    exact ⟨hempty, (List.append_eq_nil_iff.mp (envAct_rxq s ▸ hempty)).1⟩

/-- A read takes at most one byte from the queue (R33). -/
theorem chanRxByte_length_le {s t : State} {w : Wire} (h : chanRxByte s = (some w, t)) :
    s.rxq.length ≤ t.rxq.length + 1 := by
  unfold chanRxByte at h
  split at h
  · rename_i v q hcons
    obtain ⟨-, rfl⟩ := Prod.mk.inj h
    have hlen := congrArg List.length hcons
    simp only [envAct_rxq, List.length_append, List.length_cons] at hlen
    simp only [setRxq_rxq]
    omega
  · rename_i hempty
    have hnil : s.rxq = [] := (List.append_eq_nil_iff.mp (envAct_rxq s ▸ hempty)).1
    simp [hnil]

/-- Recv(n) stops early only on an empty queue, from which it took fewer than n bytes (R35). -/
theorem recv_short {n : Nat} {s : State} (h : (recv n s).1.length < n) : (recv n s).2.rxq = [] ∧ s.rxq.length < n := by
  induction n generalizing s with
  | zero => simp at h
  | succ n ih =>
    unfold recv at h ⊢
    cases hread : chanRxByte s with
    | mk v t =>
      rw [hread] at h
      cases v with
      | none =>
        obtain ⟨hafter, hbefore⟩ := chanRxByte_none hread
        exact ⟨hafter, by simp [hbefore]⟩
      | some w =>
        obtain ⟨hempty, hfew⟩ := ih (s := t) (by simpa using h)
        have := chanRxByte_length_le hread
        exact ⟨hempty, by omega⟩

/-- Settles O51: by induction on the number of bytes. -/
theorem recvTakesBytesInArrivalOrder : Obligations.RecvTakesBytesInArrivalOrder :=
  fun n s => ⟨recv_length_le n s, rfl, recv_of_le, recv_short, recv_tx n s⟩

/-! ### The frame builder -/

/-- Settles O52: the bytes are placed and summed one by one, then the sum is appended. -/
theorem frameBuilderAccumulatesTheChecksum : Obligations.FrameBuilderAccumulatesTheChecksum :=
  fun body s => ⟨buildFrame_eq body s, placeBytes_eq body s⟩

/-! ### The receive check and the slices of a response (R103, R104) -/

/-- RxSumOk compares the last two bytes with the checksum of those before them (R104). -/
theorem rxSumOk_append {body t : List Byte} (ht : t.length = 2) :
    rxSumOk (body ++ t) = true ↔ t = trailer body := by
  have hlen : (body ++ t).length - 2 = body.length := by simp [ht]
  unfold rxSumOk
  rw [hlen, if_neg (by simp [ht]), List.take_left, List.drop_left, decide_eq_true_eq, eq_comm]

theorem rxSumOk_iff (l : List Byte) : rxSumOk l = true ↔ ∃ body, l = frame body := by
  constructor
  · intro hok
    have hlen : 2 ≤ l.length := by
      by_contra hshort
      simp [rxSumOk, Nat.lt_of_not_le hshort] at hok
    have hsplit := List.take_append_drop (l.length - 2) l
    rw [← hsplit, rxSumOk_append (by simp; omega)] at hok
    exact ⟨l.take (l.length - 2), by rw [frame, ← hok, hsplit]⟩
  · rintro ⟨body, rfl⟩
    exact (rxSumOk_append (trailer_length body)).mpr rfl

/-- A trailer names its checksum. -/
theorem trailer_inj {l m : List Byte} (h : trailer l = trailer m) : csum16 l = csum16 m := by
  simp only [trailer, bigEndian, List.cons.injEq, and_true] at h
  apply BitVec.eq_of_toNat_eq
  rw [← hiByte_mul_add_loByte, ← hiByte_mul_add_loByte, h.1, h.2]

/-- Two lists that differ in one byte have different checksums: the byte values differ by less than 2^16 (R78). -/
theorem csum16_ne_of_ne {a b : Byte} (hab : a ≠ b) (l m : List Byte) :
    csum16 (l ++ b :: m) ≠ csum16 (l ++ a :: m) := by
  intro h
  simp only [csum16_append, csum16_cons, add_right_inj, add_left_inj] at h
  have hval := congrArg BitVec.toNat h
  simp only [BitVec.toNat_setWidth] at hval
  have := a.isLt
  have := b.isLt
  exact hab (BitVec.eq_of_toNat_eq (by omega))

/-- Settles O43: the check compares the trailer, and one byte moves the sum by less than 2^16. -/
theorem theReceiveCheckAcceptsExactlyTrueTrailers : Obligations.TheReceiveCheckAcceptsExactlyTrueTrailers := by
  refine ⟨rxSumOk_iff, fun l m a b hab => ?_⟩
  rw [← Bool.not_eq_true, rxSumOk_append (trailer_length _)]
  exact fun h => csum16_ne_of_ne hab l m (trailer_inj h).symm

/-- Settles O44: the two bytes at each end of a full response are set off from its payload. -/
theorem responseSlicesAreTheFieldsOfTheFrame : Obligations.ResponseSlicesAreTheFieldsOfTheFrame := by
  intro eah eal hi lo payload
  have hlen : (0x81 :: eah :: eal :: (payload ++ [hi, lo])).length - 2 = payload.length + 3 := by simp
  refine ⟨?_, rfl, ?_⟩
  · rw [respPayload, hlen]
    simp
  · rw [respTrailer, hlen]
    simp

/-! ### The sequencer (R22, R25) -/

/-- The sequencer gets from one state to the other by ticks alone. -/
def RunsTo (s t : State) : Prop := ∃ k, ticks k s = .next t

theorem RunsTo.refl (s : State) : RunsTo s s := ⟨0, rfl⟩

theorem RunsTo.trans {s t u : State} (h : RunsTo s t) (k : RunsTo t u) : RunsTo s u := by
  obtain ⟨m, hm⟩ := h
  obtain ⟨n, hn⟩ := k
  exact ⟨m + n, (ticks_trans hm).trans hn⟩

/-- The lines of a command after its Send: the round trip's, and the advance step of CALIBRATE and SNAPSHOT. -/
theorem conclude_command {op : OpKind} (hgated : gated op = true) (a : Acc) (n : Nat) (p : Sent × State) :
    conclude op a n p = ((concludeXfer n p).1,
      if op = .calibrate ∨ op = .snapshot then setAcc (accNext a) (concludeXfer n p).2 else (concludeXfer n p).2) := by
  obtain rfl | rfl | rfl | rfl | rfl | rfl := (gated_iff op).mp hgated <;> rfl

/-- The return of a command (R95, R99). -/
theorem finish_command {s : State} (hgated : gated s.op = true) (r : Result) :
    finish r s = retire r (if s.op = .calibrate ∨ s.op = .snapshot then setAcc (accNext s.acc) s else s) := by
  unfold finish
  obtain h | h | h | h | h | h := (gated_iff s.op).mp hgated <;> simp [h]

/-- A command that got all it was due judges it (R95, R96). -/
theorem received_command {s : State} (hgated : gated s.op = true) : received s = finish (judge s) s := by
  unfold received
  obtain h | h | h | h | h | h := (gated_iff s.op).mp hgated <;> simp [h]

/-- After its Send a command returns, or reads where its size is not 0 (R95). -/
theorem afterSend_command {s : State} (hgated : gated s.op = true) (j : Nat) :
    afterSend (setSeq .sending j s) = if s.rsize = 0 then finish .ok s else setSeq .recvFirst 0 s := by
  unfold afterSend
  obtain h | h | h | h | h | h := (gated_iff s.op).mp hgated <;> simp [h] <;> rfl

/-- A command's receive step tick by tick ends as its receive half does (R95). -/
theorem runsTo_receive_command {s : State} (hbusy : s.busy = true) (hgated : gated s.op = true) (hsize : s.rsize ≠ 0) :
    RunsTo (setSeq .recvFirst 0 s) (finish (xferReceive s.rsize s).1 (xferReceive s.rsize s).2) := by
  have hop : s.op ≠ .tx ∧ s.op ≠ .idle ∧ s.op ≠ .sync := by
    obtain h | h | h | h | h | h := (gated_iff s.op).mp hgated <;> simp [h]
  obtain ⟨k, hk⟩ := ticks_receive s hbusy hop (Nat.pos_of_ne_zero hsize)
  obtain ⟨_, _, _, _, _, hsame⟩ := rxBody_same s.rsize s
  have hop' : (rxBody s.rsize s).2.op = s.op := by rw [hsame]
  refine ⟨k, hk.trans ?_⟩
  rw [xferReceive_eq hsize]
  split_ifs
  · rw [received_command (hop' ▸ hgated)]
  · rfl

/-- From the end of a Send that ended TxOk (R86, R87, R89, R95). -/
theorem runsTo_afterSend {s : State} (hbusy : s.busy = true) (hop : s.op ≠ .rx) (j : Nat) :
    RunsTo (afterSend (setSeq .sending j s))
      (retire (conclude s.op s.acc s.rsize (true, s)).1 (conclude s.op s.acc s.rsize (true, s)).2) := by
  cases hgated : gated s.op with
  | true =>
    have hlast (p : Result × State) (hkept : p.2.op = s.op ∧ p.2.acc = s.acc) (hp : concludeXfer s.rsize (true, s) = p) :
        finish p.1 p.2 =
          retire (conclude s.op s.acc s.rsize (true, s)).1 (conclude s.op s.acc s.rsize (true, s)).2 := by
      rw [conclude_command hgated, hp, finish_command (hkept.1 ▸ hgated), hkept.1, hkept.2]
    rw [afterSend_command hgated]
    split_ifs with hsize
    · rw [← hlast (.ok, s) ⟨rfl, rfl⟩ (by rw [hsize]; rfl)]
      exact .refl _
    · obtain ⟨_, _, _, _, _, hsame⟩ := xferReceive_same s.rsize s
      rw [← hlast (xferReceive s.rsize s) (by rw [hsame]; exact ⟨rfl, rfl⟩) rfl]
      exact runsTo_receive_command hbusy hgated hsize
  | false =>
    cases h : s.op <;> simp only [gated, h, Bool.true_eq_false, ne_eq, not_true] at hgated hop
    case sync =>
      have hafter : afterSend (setSeq .sending j s) = setSeq .recvFirst 0 s := by simp [afterSend, h]; rfl
      rw [hafter]
      exact ⟨1, ticks_echo s hbusy h⟩
    all_goals
      have hafter : afterSend (setSeq .sending j s) = finish .ok s := by simp [afterSend, h]
      rw [hafter, finish]
      simp only [h]
      exact .refl _

/-- A Send that failed is the last primitive of its operation (R34, D27). -/
theorem finish_txFail (s : State) :
    finish (.failTransport .txFail) s =
      retire (conclude s.op s.acc s.rsize (false, s)).1 (conclude s.op s.acc s.rsize (false, s)).2 := by
  unfold finish
  cases h : s.op <;> rfl

/-- From the flush that opens its Send an operation runs to its return. -/
theorem runsTo_of_flush {s : State} (hbusy : s.busy = true) (hop : s.op ≠ .rx) :
    RunsTo (setSeq .flush 0 s)
      (retire (conclude s.op s.acc s.rsize (sendTxbuf s)).1 (conclude s.op s.acc s.rsize (sendTxbuf s)).2) := by
  obtain ⟨k, j, hk⟩ := ticks_send s hbusy hop
  refine RunsTo.trans ⟨k, hk⟩ ?_
  have hkept : (sendTxbuf s).2.busy = s.busy ∧ (sendTxbuf s).2.op = s.op ∧ (sendTxbuf s).2.acc = s.acc ∧
      (sendTxbuf s).2.rsize = s.rsize := by
    obtain ⟨_, _, _, _, hsame⟩ := send_same s.txbuf s
    rw [sendTxbuf, hsame]
    exact ⟨rfl, rfl, rfl, rfl⟩
  obtain ⟨hbusy', hop', hacc', hrsize'⟩ := hkept
  rcases hsent : sendTxbuf s with ⟨sent, t⟩
  simp only [hsent] at hbusy' hop' hacc' hrsize' ⊢
  rw [← hop', ← hacc', ← hrsize']
  cases sent with
  | false =>
    rw [if_neg (by simp), finish_txFail]
    exact .refl _
  | true =>
    rw [if_pos rfl]
    exact runsTo_afterSend (hbusy'.trans hbusy) (hop' ▸ hop) j

/-- Every operation but SYNC and RX begins with the flush of its Send (R34). -/
theorem firstPhase_of_sends {op : OpKind} (hsync : op ≠ .sync) (hrx : op ≠ .rx) : firstPhase op = .flush := by
  cases op with
  | sync => exact absurd rfl hsync
  | rx => exact absurd rfl hrx
  | _ => rfl

/-- The lines before the first primitive are those before the Send, but for SYNC, whose prologue is itself a primitive. -/
theorem prepare_of_ne_sync {s : State} (hsync : s.op ≠ .sync) : prepare s = prepared s.op s := by
  rw [prepare_eq]
  split
  · rename_i h
    exact absurd h hsync
  · rfl

section
variable {a : State} (hbusy : a.busy = true)
include hbusy

/-- RX is its receive step (R88). -/
theorem runsTo_of_enter_rx (hrx : a.op = .rx) (hsize : 1 ≤ a.rsize) :
    RunsTo (enter a) (retire (runRx a).1 (runRx a).2) := by
  obtain ⟨k, hk⟩ := ticks_receive a hbusy (by simp [hrx]) hsize
  obtain ⟨_, _, _, _, _, hsame⟩ := rxBody_same a.rsize a
  have hop : (rxBody a.rsize a).2.op = .rx := by rw [hsame]; exact hrx
  have henter : enter a = setSeq .recvFirst 0 a := by simp [enter, prepare, hrx, firstPhase]
  rw [henter]
  refine ⟨k, hk.trans ?_⟩
  split_ifs with hok
  · simp only [received, finish, hop, runRx, hok]
  · simp only [finish, hop, runRx]

/-- SYNC runs its prologue in the tick of the line reset (R86; log 17). -/
theorem runsTo_of_enter_sync (hsync : a.op = .sync) : RunsTo (enter a) (retire (runSync a).1 (runSync a).2) := by
  have henter : enter a = setSeq .lineReset 0 a := by simp [enter, prepare, hsync, firstPhase]
  have hprologue : (syncPrologue a).busy = true ∧ (syncPrologue a).op = .sync := by
    rw [syncPrologue_eq]
    exact ⟨hbusy, hsync⟩
  have hfirst : RunsTo (enter a) (setSeq .flush 0 (syncPrologue a)) := by
    refine ⟨1, ?_⟩
    rw [henter, ticks_one (s := setSeq .lineReset 0 a) hbusy (by simp [positionOk, hsync])]
    simp only [advance, setSeq_phase, syncPrologue_eq]
    rfl
  have hrest := runsTo_of_flush hprologue.1 (by simp [hprologue.2])
  rw [hprologue.2] at hrest
  rw [runSync_eq]
  exact hfirst.trans hrest

/-- Every other operation is entered at its flush, with its frame built (log 17). -/
theorem runsTo_of_enter_sends (hsync : a.op ≠ .sync) (hrx : a.op ≠ .rx) :
    RunsTo (enter a) (retire (runOf a.op a).1 (runOf a.op a).2) := by
  have hkept : (prepared a.op a).busy = true ∧ (prepared a.op a).op = a.op ∧ (prepared a.op a).acc = a.acc ∧
      (prepared a.op a).rsize = a.rsize := by
    obtain ⟨_, _, hsame⟩ := prepared_same hsync a
    rw [hsame]
    exact ⟨hbusy, rfl, rfl, rfl⟩
  obtain ⟨hbusy', hop', hacc', hrsize'⟩ := hkept
  have hrest := runsTo_of_flush hbusy' (by rwa [hop'])
  rw [hop', hacc', hrsize'] at hrest
  rw [enter, firstPhase_of_sends hsync hrx, prepare_of_ne_sync hsync, runOf_eq hrx]
  exact hrest

/-- An admitted operation, entered, runs to the return of its blocking form. -/
theorem runsTo_of_enter (hsize : a.op = .rx → 1 ≤ a.rsize) :
    RunsTo (enter a) (retire (runOf a.op a).1 (runOf a.op a).2) := by
  by_cases hrx : a.op = .rx
  · rw [hrx]
    exact runsTo_of_enter_rx hbusy hrx (hsize hrx)
  · by_cases hsync : a.op = .sync
    · rw [hsync]
      exact runsTo_of_enter_sync hbusy hsync
    · exact runsTo_of_enter_sends hbusy hsync hrx

end

/-- Settles O53: the sequencer's Send and receive loops are Send and the receive step, and the return is one. -/
theorem theSequencerRefinesTheAtomicOperation : Obligations.TheSequencerRefinesTheAtomicOperation := by
  intro s i hadm
  obtain ⟨r, hr, hnone⟩ := exists_request hadm
  obtain ⟨-, hbad, -⟩ := admission_eq_none.mp hnone
  have hbusy : (enter (accept r s)).busy = true := by
    obtain ⟨_, _, hsame⟩ := prepare_same (accept r s)
    rw [enter, setSeq_busy, hsame]
    exact accept_busy r s
  obtain ⟨k, hk⟩ := runsTo_of_enter (accept_busy r s) (accept_rsize_pos hbad)
  rw [accept_op] at hk
  refine ⟨k, enter (accept r s), ?_, hbusy, hk.trans (exec_of_admitted hr hnone).symm⟩
  simp only [startInstr, hr, beginRequest, hnone]

end Sys2Proof.Machine

/-!
PROOFS of the statements about SYNC, TX, RX and IDLE (41_transport_ops.md): how each ends, for every environment and on the
scripted line of 95_test_vectors.md section 0.
-/

namespace Sys2Proof.Machine

/-! ### The scripted line -/

section
variable {s : State} {e : List EnvMove}

/-- A read on an empty queue while the line is silent times out (R33). -/
theorem chanRxByte_quiet (hq : s.rxq = []) (h : s.env = EnvMove.quiet :: e) : chanRxByte s = (none, { s with env := e }) := by
  simp [chanRxByte, envAct_quiet h, hq, envMove_of_cons h, EnvMove.quiet]

/-- A read on an empty queue takes the first byte of an answer (R33). -/
theorem chanRxByte_answer {w : Wire} {q : List Wire} (hq : s.rxq = []) (h : s.env = ⟨w :: q, none, false⟩ :: e) :
    chanRxByte s = (some w, { s with rxq := q, env := e }) := by
  simp [chanRxByte, envAct, envMove_of_cons h, hq, h, setRxq]

/-- A Send that fails before its first byte (R34, D27). -/
theorem send_fails (hfail : s.cfg.txCanFail = true) (h : s.env = EnvMove.quiet :: ⟨[], none, true⟩ :: e) (b : Byte)
    (l : List Byte) : send (b :: l) s = (false, { s with rxq := [], env := e }) := by
  rw [send, chanFlush, envAct_quiet h]
  simp [sendBytes, setRxq, envMove, envAct, hfail]

/-- Bytes in the queue are read as if they arrived just before the first read (R36). -/
theorem rxBody_queue_eq_arrival (n : Nat) (h : s.env = EnvMove.quiet :: e) :
    rxBody n s = rxBody n { s with rxq := [], env := ⟨s.rxq, none, false⟩ :: e } := by
  have hread : chanRxByte (setRbuf [] s) =
      chanRxByte (setRbuf [] { s with rxq := [], env := ⟨s.rxq, none, false⟩ :: e }) := by
    cases hq : s.rxq <;> simp [chanRxByte, envAct, envMove, setRbuf, setRxq, EnvMove.quiet, h, hq]
  rw [rxBody, rxBody, hread]

/-- Bytes that arrive just before the first read are read as if they had stood in the queue (R36). -/
theorem rxBody_arrival_eq_queue (n : Nat) {q : List Wire} (hq : s.rxq = []) (h : s.env = ⟨q, none, false⟩ :: e) :
    rxBody n s = rxBody n { s with rxq := q, env := EnvMove.quiet :: e } := by
  have harrival := rxBody_queue_eq_arrival (s := { s with rxq := q, env := EnvMove.quiet :: e }) n rfl
  rw [harrival, ← hq, ← h]

/-- A request's Send on a line that is silent throughout: the whole frame goes out (R34). -/
theorem sendTxbuf_prepared_quiet {i : Instr} {r : Request} (hr : requestOf i = some r) (hrx : r.op ≠ .rx)
    (hsync : r.op ≠ .sync) (h : s.env = List.replicate ((transmitted i s).length + 1) EnvMove.quiet ++ e) :
    sendTxbuf (prepared r.op (accept r s)) =
      (true, { prepared r.op (accept r s) with rxq := [], tx := s.tx ++ wireImage (transmitted i s), env := e }) := by
  obtain ⟨x, c, hsame⟩ := prepared_same hsync (accept r s)
  have henv : (prepared r.op (accept r s)).env = s.env := by rw [hsame]; exact accept_env r s
  have htx : (prepared r.op (accept r s)).tx = s.tx := by rw [hsame]; exact accept_tx r s
  rw [sendTxbuf, prepared_txbuf hr hrx, send_quiet _ (henv.trans h), htx]

end

/-! ### SYNC (R86) -/

/-- SYNC's line reset, flush and byte on a silent line. -/
theorem sendTxbuf_syncPrologue_quiet {s : State} {e : List EnvMove}
    (h : s.env = List.replicate 3 EnvMove.quiet ++ e) :
    sendTxbuf (syncPrologue s) =
      (true, { syncPrologue s with rxq := [], tx := s.tx ++ [.lineReset, .byte 0x55], env := e }) := by
  have hframe : (syncPrologue s).txbuf = syncBody := by rw [syncPrologue_eq]
  have htx : (syncPrologue s).tx ++ wireImage syncBody = s.tx ++ [.lineReset, .byte 0x55] := by
    rw [syncPrologue_eq, List.append_assoc]
    rfl
  have henv : (syncPrologue s).env = List.replicate (syncBody.length + 1) EnvMove.quiet ++ e := by
    rw [syncPrologue_eq]
    simp [h, syncBody, List.replicate]
  rw [sendTxbuf, hframe, send_quiet syncBody henv, htx]

/-- SYNC on a line that is silent but for one byte: it is compared with the sync byte. -/
theorem runSync_answer {s : State} {b : Byte} {e : List EnvMove} (h : s.env = deviceAnswers 2 [b] e) :
    runSync s = syncEcho (rev8 b)
      { syncPrologue s with rxq := [], tx := s.tx ++ [.lineReset, .byte 0x55], env := e } := by
  rw [runSync_eq, sendTxbuf_syncPrologue_quiet h]
  simp only [concludeSync, if_true]
  rw [chanRxByte_answer (e := e) rfl rfl]
  rfl

/-- SYNC on a silent line: no echo. -/
theorem runSync_quiet {s : State} {e : List EnvMove} (h : s.env = deviceAnswers 2 [] e) :
    runSync s = (.failTransport .rxEmpty, setSync .unsynced
      { syncPrologue s with rxq := [], tx := s.tx ++ [.lineReset, .byte 0x55], env := e }) := by
  rw [runSync_eq, sendTxbuf_syncPrologue_quiet h]
  simp only [concludeSync, if_true]
  rw [chanRxByte_quiet (e := e) rfl rfl]

/-- SYNC where its Send fails before the byte: the line reset has gone out, nothing else. -/
theorem runSync_fails {s : State} {e : List EnvMove} (hfail : s.cfg.txCanFail = true)
    (h : s.env = List.replicate 2 EnvMove.quiet ++ ⟨[], none, true⟩ :: e) :
    runSync s = (.failTransport .txFail, setSync .unsynced { syncPrologue s with rxq := [], env := e }) := by
  have hframe : (syncPrologue s).txbuf = syncBody := by rw [syncPrologue_eq]
  have hcfg : (syncPrologue s).cfg = s.cfg := by rw [syncPrologue_eq]; rfl
  have henv : (syncPrologue s).env = EnvMove.quiet :: ⟨[], none, true⟩ :: e := by
    rw [syncPrologue_eq]
    simp [h, List.replicate]
  rw [runSync_eq, sendTxbuf, hframe, syncBody, send_fails (hcfg ▸ hfail) henv]
  rfl

/-- Settles O30: the byte that comes back is the sync byte. -/
theorem syncWithItsEchoOpensTheSession : Obligations.SyncWithItsEchoOpensTheSession := by
  intro s later hidle henv
  have hrun := runSync_answer (s := accept { op := .sync } s) henv
  have hecho : rev8 (rev8 0xAA) = Config.syncByte := by decide
  rw [syncEcho, if_pos hecho, hecho] at hrun
  refine ⟨_, exec_sync_of_idle hidle, ?_⟩
  rw [hrun]
  simp [syncPrologue_eq, Config.syncByte]

/-- Settles O31: another byte, no byte, or no Send. -/
theorem syncReportsEachFailureAndShutsTheWindow : Obligations.SyncReportsEachFailureAndShutsTheWindow := by
  intro s t later hidle hexec
  rw [exec_sync_of_idle hidle] at hexec
  cases hexec
  refine ⟨fun b hb henv => ?_, fun henv => ?_, fun hfail henv => ?_⟩
  · have hrun := runSync_answer (s := accept { op := .sync } s) henv
    have hother : rev8 (rev8 b) ≠ Config.syncByte := by rwa [rev8_rev8]
    rw [syncEcho, if_neg hother] at hrun
    rw [hrun]
    simp
  · rw [runSync_quiet (s := accept { op := .sync } s) henv]
    simp [syncPrologue_eq]
  · rw [runSync_fails (s := accept { op := .sync } s) hfail henv]
    simp [syncPrologue_eq]

/-- A Send that failed could fail (R34). -/
theorem txCanFail_of_send {l : List Byte} {s : State} (h : (send l s).1 = false) : s.cfg.txCanFail = true := by
  obtain ⟨k, -, -, hwhole, hnofail⟩ := send_tx l s
  cases hcan : s.cfg.txCanFail with
  | true => rfl
  | false => exact absurd (hwhole.mpr (hnofail hcan)) (by simp [h])

/-- Settles O32: the four ends of the lines after the Send, on the empty RBUF that the lines before it leave. -/
theorem syncOpensTheSessionExactlyOnTheEcho : Obligations.SyncOpensTheSessionExactlyOnTheEcho := by
  intro s t hidle hexec
  rw [exec_sync_of_idle hidle] at hexec
  cases hexec
  obtain ⟨_, _, _, _, _, _, _, _, hsame⟩ := runSync_same (accept { op := .sync } s)
  have hlines : (runSync (accept { op := .sync } s)).2.brk = false ∧ (runSync (accept { op := .sync } s)).2.ctl = false := by
    rw [hsame]
    exact ⟨rfl, rfl⟩
  obtain ⟨-, -, -, -, hopen, hends⟩ := concludeSync_spec (sendTxbuf (syncPrologue (accept { op := .sync } s)))
  have hempty : (sendTxbuf (syncPrologue (accept { op := .sync } s))).2.rbuf = [] := by
    rw [sendTxbuf_rbuf, syncPrologue_eq]
  rw [← runSync_eq] at hopen hends
  refine ⟨hlines.1, hlines.2, hopen, ?_⟩
  obtain hok | hecho | hnone | ⟨hfailed, hrbuf, hsend⟩ := hends hempty
  · exact .inl hok
  · exact .inr (.inl hecho)
  · exact .inr (.inr (.inl hnone))
  · have hcfg : (syncPrologue (accept { op := .sync } s)).cfg = s.cfg := by rw [syncPrologue_eq]; rfl
    exact .inr (.inr (.inr ⟨hfailed, hrbuf, hcfg ▸ txCanFail_of_send hsend⟩))

/-! ### TX, FLUSH and IDLE (R87, R89) -/

/-- Settles O33: a Send on a silent line, and the flush alone. -/
theorem txSendsItsBytesAndFlushes : Obligations.TxSendsItsBytesAndFlushes := by
  intro s l later hidle
  refine ⟨fun hfits henv => ?_, _, exec_flush_of_idle hidle, ?_⟩
  · have hr : requestOf (.tx l) = some { op := .tx, bytes := l } := rfl
    have hadm := admission_of_not_gated (r := { op := .tx, bytes := l }) hidle (by simpa [badOperand] using hfits) rfl
    have hsent := sendTxbuf_prepared_quiet hr (by simp) (by simp) henv
    refine ⟨_, exec_of_admitted hr hadm, ?_⟩
    rw [runOf_eq (by simp), hsent]
    simp [conclude, prepared, transmitted, expand]
  · simp

/-- Settles O34: a Send of the idle frame on a silent line. -/
theorem idleSendsItsFrameAndShutsTheWindow : Obligations.IdleSendsItsFrameAndShutsTheWindow := by
  intro s later hidle henv
  have hr : requestOf .idle = some { op := .idle } := rfl
  have hsent := sendTxbuf_prepared_quiet hr (by simp) (by simp) henv
  have hwire : wireImage (transmitted .idle s) =
      if s.cfg.idleTrailer then [.byte 0x0D, .byte 0x00, .byte 0x0D] else [.byte 0x0D] := by
    simp only [transmitted, expand]
    cases s.cfg.idleTrailer <;> decide
  obtain ⟨_, _, hsame⟩ := prepared_same (op := .idle) (by simp) (accept { op := .idle } s)
  refine ⟨_, exec_of_admitted hr (admission_of_not_gated hidle rfl rfl), ?_⟩
  rw [runOf_eq (by simp), hsent, hwire]
  simp only [hsame]
  simp [conclude]

/-! ### RX (R88) -/

/-- An RX of a size in range on an idle engine is admitted (R85). -/
theorem exec_rx_of_idle {s : State} {n : Nat} (hidle : s.busy = false) (hpos : 1 ≤ n) (hfits : n ≤ s.cfg.rbufMax) :
    exec (.rx n) s = .next (retire (rxBody n (accept { op := .rx, rsize := n } s)).1
      (rxBody n (accept { op := .rx, rsize := n } s)).2) :=
  exec_of_admitted (r := { op := .rx, rsize := n }) rfl
    (admission_of_not_gated hidle (by simp [badOperand]; omega) rfl)

/-- Settles O35: the receive step on a queue that holds all it is due. -/
theorem rxTakesExactlyTheBytesItIsDue : Obligations.RxTakesExactlyTheBytesItIsDue := by
  intro s n w q hidle hpos hfits hq hdue
  obtain ⟨hok, hrbuf, new, hrest⟩ :=
    rxBody_of_queue (n := n) (s := accept { op := .rx, rsize := n } s) ((accept_rxq _ s).trans hq)
      (by rw [accept_cfg]; exact hdue)
  rw [accept_cfg, restLen] at hrbuf hrest
  refine ⟨_, new, exec_rx_of_idle hidle hpos hfits, hok, congrArg Reply.result hok, ?_, hrbuf, hrest⟩
  rw [retire_tx, rxBody_tx, accept_tx]

/-- What a receive step of size n is due in all, its first byte among them. -/
theorem restLen_add_one {n : Nat} (hn : 1 ≤ n) (c : Cfg) (w : Wire) :
    restLen c n w + 1 = if w = c.shortRaw then 2 else n := by
  unfold restLen
  split_ifs
  · rfl
  · omega

/-- Settles O36: what stands in RXQ is read as an answer that arrives before the first read. -/
theorem rxReportsEmptyAndShortReads : Obligations.RxReportsEmptyAndShortReads := by
  intro s n later hidle hpos hfits henv
  have hquiet : (accept { op := .rx, rsize := n } s).env = EnvMove.quiet :: (List.replicate n EnvMove.quiet ++ later) :=
    (accept_env _ s).trans henv
  obtain ⟨e, hstate, hresult⟩ := rxBody_answer hpos (resp := s.rxq.map rev8) (e := later)
    (s := { accept { op := .rx, rsize := n } s with
      rxq := [], env := ⟨s.rxq, none, false⟩ :: (List.replicate n EnvMove.quiet ++ later) }) rfl
    (by simp [Function.comp_def])
  have harrival := rxBody_queue_eq_arrival n hquiet
  rw [accept_rxq] at harrival
  rw [← harrival] at hstate hresult
  refine ⟨_, exec_rx_of_idle hidle hpos hfits, ?_⟩
  rw [hstate, hresult]
  refine ⟨by simp, by simp, by simp, fun hempty => by simp [hempty], fun w q m hq hm => ?_⟩
  have hdue : (if ((s.rxq.map rev8).head?.map rev8) = some s.cfg.shortRaw then 2 else n) = m + 1 := by
    rw [hm, ← restLen, restLen_add_one hpos]
    simp [hq]
  simp only [accept_cfg, hdue]
  simp [hq, List.map_take, Function.comp_def]

/-- An RX of a frame's size on a queue that holds that frame alone returns it (R65, R88). -/
theorem exec_rx_of_frame {s : State} {n : Nat} {b : Byte} {rest : List Byte} (hidle : s.busy = false) (hpos : 1 ≤ n)
    (hfits : n ≤ s.cfg.rbufMax) (hq : s.rxq = (b :: rest).map rev8)
    (hdue : (if rev8 b = s.cfg.shortRaw then 1 else n - 1) = rest.length) :
    ∃ u, exec (.rx n) s = .next u ∧ u.result = .ok ∧ u.rbuf = b :: rest := by
  obtain ⟨u, -, hexec, hok, -, -, hrbuf, -⟩ := rxTakesExactlyTheBytesItIsDue s n (rev8 b) (rest.map rev8) hidle hpos hfits
    hq (by rw [hdue, List.length_map])
  refine ⟨u, hexec, hok, ?_⟩
  rw [hrbuf, hdue, rev8_rev8, List.take_of_length_le (by simp), map_rev8_map_rev8]

/-- A first byte other than a short frame's is no SHORT_RAW at its default (D5). -/
theorem rev8_ne_shortRaw {b : Byte} (hb : b ≠ Config.stShort) : rev8 b ≠ 0x41 := by
  intro h
  exact hb (((rev8_eq_iff b 0x41).mp h).trans (by decide))

/-- Settles O37: a frame arrives alone in the queue, and the first byte says how many follow. -/
theorem arrivedFramesAreReadBackAndClassified : Obligations.ArrivedFramesAreReadBackAndClassified := by
  intro s t hidle hempty hraw
  refine ⟨fun rest hfits hexec => ?_, fun x n hpos hfits hexec => ?_, fun st rest hwf hfits hexec => ?_⟩ <;>
    cases hexec
  · obtain ⟨u, hrx, hok, hrbuf⟩ := exec_rx_of_frame (s := arrive (Config.stFull :: rest) s) hidle
      (Nat.le_add_left 1 rest.length) hfits (by rw [arrive_rxq, hempty, List.nil_append])
      (by rw [arrive_cfg, hraw, if_neg (rev8_ne_shortRaw (by decide)), Nat.add_sub_cancel])
    exact ⟨u, hrx, hok, hrbuf, by rw [hrbuf]; rfl⟩
  · obtain ⟨u, hrx, hok, hrbuf⟩ := exec_rx_of_frame (s := arrive [Config.stShort, x] s) hidle hpos hfits
      (by rw [arrive_rxq, hempty, List.nil_append])
      (by rw [arrive_cfg, hraw, if_pos (by decide)]; rfl)
    exact ⟨u, hrx, hok, hrbuf, by rw [hrbuf]; rfl⟩
  · obtain ⟨hfull, hshort⟩ : st ≠ Config.stFull ∧ st ≠ Config.stShort := by simpa [Instr.wf] using hwf
    obtain ⟨u, hrx, hok, hrbuf⟩ := exec_rx_of_frame (s := arrive (st :: rest) s) hidle
      (Nat.le_add_left 1 rest.length) hfits (by rw [arrive_rxq, hempty, List.nil_append])
      (by rw [arrive_cfg, hraw, if_neg (rev8_ne_shortRaw hshort), Nat.add_sub_cancel])
    exact ⟨u, hrx, hok, hrbuf, by rw [hrbuf, statusClass_cons, if_neg hfull, if_neg hshort]⟩

end Sys2Proof.Machine

/-!
PROOFS of the statements about the commands (42_command_ops.md): the six commands, READREG and WRITEREG on a line that answers,
and what each result records.
-/

namespace Sys2Proof.Machine

/-! ### Judge by the first byte (R96, R116) -/

theorem judge_of_cons {s : State} {b : Byte} {l : List Byte} (h : s.rbuf = b :: l) :
    judge s =
      if b = Config.stShort then .failProtocol .shortFrame
      else if b ≠ Config.stFull then .failProtocol .badStatus
      else if s.cfg.rxCsumCheck = true ∧ rxSumOk s.rbuf = false then .failProtocol .badSum
      else .ok := by
  unfold judge
  rw [h, statusClass_cons]
  by_cases hfull : b = Config.stFull
  · simp [hfull, stShort_ne_stFull.symm]
  · by_cases hshort : b = Config.stShort <;> simp [hfull, hshort, stShort_ne_stFull]

/-- Judge on what the receive step left, which keeps CFG. -/
theorem judge_rxBody {n : Nat} {s : State} {b : Byte} {l : List Byte} (h : (rxBody n s).2.rbuf = b :: l) :
    judge (rxBody n s).2 =
      if b = Config.stShort then .failProtocol .shortFrame
      else if b ≠ Config.stFull then .failProtocol .badStatus
      else if s.cfg.rxCsumCheck = true ∧ rxSumOk (b :: l) = false then .failProtocol .badSum
      else .ok := by
  have hcfg : (rxBody n s).2.cfg = s.cfg := by
    obtain ⟨_, _, _, _, _, hsame⟩ := rxBody_same n s
    rw [hsame]
  rw [judge_of_cons h, h, hcfg]

/-! ### A command as its Send and its receive half -/

/-- The advance step of CALIBRATE and SNAPSHOT, which no other command has (R99, R101). -/
def advanceFor (i : Instr) (a : Acc) (s : State) : State := if advances i then setAcc (accNext a) s else s

section
variable (i : Instr) (a : Acc) (s : State)

@[simp] theorem advanceFor_rbuf : (advanceFor i a s).rbuf = s.rbuf := by unfold advanceFor; split <;> rfl
@[simp] theorem advanceFor_rxq : (advanceFor i a s).rxq = s.rxq := by unfold advanceFor; split <;> rfl
@[simp] theorem advanceFor_tx : (advanceFor i a s).tx = s.tx := by unfold advanceFor; split <;> rfl
@[simp] theorem advanceFor_env : (advanceFor i a s).env = s.env := by unfold advanceFor; split <;> rfl
@[simp] theorem advanceFor_syncState : (advanceFor i a s).syncState = s.syncState := by unfold advanceFor; split <;> rfl
theorem advanceFor_acc : (advanceFor i a s).acc = if advances i then accNext a else s.acc := by
  unfold advanceFor; split <;> rfl

end

theorem ne_rx_of_gated {op : OpKind} (hgated : gated op = true) : op ≠ .rx := by
  rintro rfl
  cases hgated

theorem ne_sync_of_gated {op : OpKind} (hgated : gated op = true) : op ≠ .sync := by
  rintro rfl
  cases hgated

section
variable {i : Instr} {r : Request} {s : State} (hr : requestOf i = some r) (hgated : gated r.op = true)
include hr hgated

/-- The pseudocode of a command: its Send, the lines after it, the advance step (R95 to R102). -/
theorem runOf_command :
    runOf r.op (accept r s) =
      ((concludeXfer r.rsize (sendTxbuf (prepared r.op (accept r s)))).1,
        advanceFor i s.acc (concludeXfer r.rsize (sendTxbuf (prepared r.op (accept r s)))).2) := by
  have hrsize : (accept r s).rsize = r.rsize := by rw [accept_command hgated]
  rw [runOf_eq (ne_rx_of_gated hgated), conclude_command hgated, hrsize, accept_acc, advanceFor]
  simp only [← advances_iff hr]

/-- Where a command's Send has gone out on a silent line: the frame is on TX, RXQ is empty, and nothing else of S but the
operand registers and the frame buffer has moved. -/
theorem exec_command_quiet {e : List EnvMove} (hidle : s.busy = false) (hopen : s.syncState = .synced)
    (hbad : badOperand s.cfg r = false)
    (henv : s.env = List.replicate ((transmitted i s).length + 1) EnvMove.quiet ++ e) :
    ∃ u : State, exec i s = .next (retire (xferReceive r.rsize u).1 (advanceFor i s.acc (xferReceive r.rsize u).2)) ∧
      u.rxq = [] ∧ u.env = e ∧ u.tx = s.tx ++ wireImage (transmitted i s) ∧ u.rbuf = s.rbuf ∧ u.cfg = s.cfg ∧
      u.acc = s.acc ∧ u.syncState = s.syncState := by
  obtain ⟨x, c, hsame⟩ := prepared_same (ne_sync_of_gated hgated) (accept r s)
  refine ⟨{ prepared r.op (accept r s) with rxq := [], tx := s.tx ++ wireImage (transmitted i s), env := e }, ?_, ?_⟩
  · rw [exec_of_admitted hr (admission_of_synced hidle hbad hopen), runOf_command hr hgated,
      sendTxbuf_prepared_quiet hr (ne_rx_of_gated hgated) (ne_sync_of_gated hgated) henv]
    rfl
  · simp [hsame]

/-- A command that reads, its Send gone out on a silent line: its receive step runs on an empty RXQ, Judge follows it, and the
counter, the window and the trace are those of a success whatever the answer is (R95, R99, R117). -/
theorem exec_command_reads {e : List EnvMove} (hidle : s.busy = false) (hopen : s.syncState = .synced)
    (hbad : badOperand s.cfg r = false) (hpos : 1 ≤ r.rsize)
    (henv : s.env = List.replicate ((transmitted i s).length + 1) EnvMove.quiet ++ e) :
    ∃ u t : State, u.rxq = [] ∧ u.env = e ∧ u.cfg = s.cfg ∧ exec i s = .next t ∧
      t.rbuf = (rxBody r.rsize u).2.rbuf ∧ t.rxq = (rxBody r.rsize u).2.rxq ∧
      t.result = (if (rxBody r.rsize u).1 = .ok then judge (rxBody r.rsize u).2 else (rxBody r.rsize u).1) ∧
      t.reply = .result t.result ∧ t.busy = false ∧ t.syncState = .synced ∧
      t.tx = s.tx ++ wireImage (transmitted i s) ∧ t.acc = if advances i then accNext s.acc else s.acc := by
  obtain ⟨u, hexec, hrxq, hu, htx, -, hcfg, hacc, hsync⟩ := exec_command_quiet hr hgated hidle hopen hbad henv
  have hkept : (rxBody r.rsize u).2.syncState = u.syncState ∧ (rxBody r.rsize u).2.acc = u.acc := by
    obtain ⟨_, _, _, _, _, hsame⟩ := rxBody_same r.rsize u
    rw [hsame]
    exact ⟨rfl, rfl⟩
  rw [xferReceive_eq (by omega)] at hexec
  refine ⟨u, _, hrxq, hu, hcfg, hexec, ?_⟩
  simp [hkept, htx, hsync, hopen, advanceFor_acc, hacc]

end

/-! ### Size 0 -/

/-- Settles O39: the receive half is nothing. -/
theorem sendOnlyCommandsComplete : Obligations.SendOnlyCommandsComplete := by
  intro s i r later hr hgated hread hzero hidle hopen henv
  have hbad : badOperand s.cfg r = false := by
    unfold badOperand
    cases hop : r.op <;> simp [gated, hop, hzero] at hgated hread ⊢
  obtain ⟨u, hexec, hrxq, hu, htx, hrbuf, -, hacc, hsync⟩ := exec_command_quiet hr hgated hidle hopen hbad henv
  rw [hzero, xferReceive_zero] at hexec
  refine ⟨_, hexec, ?_⟩
  simp [hrxq, hu, htx, hrbuf, hsync, hopen, advanceFor_acc, hacc]

/-! ### Any answer -/

/-- Settles O40: the receive step against the answer, and Judge on what it took. -/
theorem commandsJudgeAnyAnswer : Obligations.CommandsJudgeAnyAnswer := by
  intro s i r resp due later hr hgated hidle hopen hbad hpos hdue henv
  obtain ⟨u, t, hempty, hu, hcfg, hexec, hrbuf, hrxq, hresult, -, -, hsync, htx, hacc⟩ :=
    exec_command_reads (e := ⟨resp.map rev8, none, false⟩ :: (List.replicate r.rsize EnvMove.quiet ++ later))
      hr hgated hidle hopen hbad hpos henv
  obtain ⟨e, hstate, hend⟩ := rxBody_answer hpos hempty hu
  rw [hcfg, ← hdue] at hend
  have htaken : (rxBody r.rsize u).2.rbuf = resp.take due := by rw [hstate, hdue, hcfg]
  have hleft : (rxBody r.rsize u).2.rxq = (resp.drop due).map rev8 := by rw [hstate, hdue, hcfg]
  refine ⟨t, hexec, hrbuf.trans htaken, hrxq.trans hleft, hsync, htx, hacc, ?_⟩
  rw [hresult, hend]
  cases resp with
  | nil => rfl
  | cons b l =>
    have htake : (b :: l).take due = b :: l.take (due - 1) := by
      obtain ⟨k, rfl⟩ : ∃ k, due = k + 1 := ⟨due - 1, by rw [hdue]; split_ifs <;> omega⟩
      rfl
    rw [judge_rxBody (htaken.trans htake), htake, hcfg]
    by_cases hshort : (b :: l).length < due
    · simp only [hshort, if_true, reduceCtorEq, if_false]
    · simp only [hshort, if_true, reduceCtorEq, if_false, List.head?_cons, ne_eq, Option.some.injEq]
      rfl

/-! ### A full response (R95) -/

/-- A first byte of a full frame is no SHORT_RAW, whichever of the two values of D5 it has. -/
theorem rev8_stFull_ne_shortRaw {c : Cfg} (h : c.shortRaw = 0x41 ∨ c.shortRaw = 0x82) :
    rev8 Config.stFull ≠ c.shortRaw := by
  obtain h | h := h <;> rw [h] <;> decide

/-- Settles O38: the answer is all the receive step is due, so what the environment does later is not looked at. -/
theorem commandsCompleteWithAFullResponse : Obligations.CommandsCompleteWithAFullResponse := by
  intro s i r rest later hr hgated hidle hopen hbad hraw hlen hsum henv
  obtain ⟨u, t, hempty, hu, hcfg, hexec, hrbuf, -, hresult, hreply, hbusy, hsync, htx, hacc⟩ :=
    exec_command_reads (e := ⟨(Config.stFull :: rest).map rev8, none, false⟩ :: later)
      hr hgated hidle hopen hbad (by omega) henv
  have hdue : restLen u.cfg r.rsize (rev8 Config.stFull) = (rest.map rev8).length := by
    rw [restLen, hcfg, if_neg (rev8_stFull_ne_shortRaw hraw), ← hlen, List.length_map, Nat.add_sub_cancel]
  obtain ⟨hok, htaken, -⟩ := rxBody_of_queue (n := r.rsize) (w := rev8 Config.stFull) (q := rest.map rev8)
    (s := { u with rxq := (Config.stFull :: rest).map rev8, env := EnvMove.quiet :: later }) rfl hdue.le
  rw [← rxBody_arrival_eq_queue r.rsize hempty hu] at hok htaken
  simp only [hdue, List.take_length, ← List.map_cons, map_rev8_map_rev8] at htaken
  have hjudge : judge (rxBody r.rsize u).2 = .ok := by
    have hnosum : ¬(u.cfg.rxCsumCheck = true ∧ rxSumOk (Config.stFull :: rest) = false) := by
      rintro ⟨hcheck, hwrong⟩
      exact absurd (hsum (hcfg ▸ hcheck)) (by rw [Bool.not_eq_true]; exact hwrong)
    rw [judge_rxBody htaken, if_neg stShort_ne_stFull.symm, if_neg (by simp), if_neg hnosum]
  rw [if_pos hok, hjudge] at hresult
  rw [hresult] at hreply
  have hframe : t.rbuf = 0x81 :: rest := hrbuf.trans htaken
  exact ⟨t, hexec, hresult, hreply, hbusy, hsync, hframe, by rw [hframe]; rfl, htx, hacc⟩

/-! ### What each result records (R110) -/

/-- What an admitted command leaves, for every environment: its Send failed, or the receive half ran on a state that keeps
CFG. -/
theorem exec_command_cases {s t : State} {i : Instr} {r : Request} (hr : requestOf i = some r)
    (hgated : gated r.op = true) (hadm : admitted i s = true) (hexec : exec i s = .next t) :
    (t.result = .failTransport .txFail ∧ t.rbuf = s.rbuf ∧ s.cfg.txCanFail = true) ∨
    ∃ u : State, u.cfg = s.cfg ∧ t.result = (xferReceive r.rsize u).1 ∧ t.rbuf = (xferReceive r.rsize u).2.rbuf := by
  rw [exec_of_admitted hr ((admitted_iff hr s).mp hadm), runOf_command hr hgated] at hexec
  cases hexec
  obtain ⟨_, _, hsame⟩ := prepared_same (ne_sync_of_gated hgated) (accept r s)
  have hcfg : (sendTxbuf (prepared r.op (accept r s))).2.cfg = s.cfg := by
    obtain ⟨_, _, _, _, hsent⟩ := send_same (prepared r.op (accept r s)).txbuf (prepared r.op (accept r s))
    rw [sendTxbuf, hsent, hsame]
    exact accept_cfg r s
  cases hsent : (sendTxbuf (prepared r.op (accept r s))).1 with
  | true =>
    refine .inr ⟨_, hcfg, ?_⟩
    simp [concludeXfer, hsent]
  | false =>
    have hcan := txCanFail_of_send hsent
    have hrbuf : (prepared r.op (accept r s)).rbuf = s.rbuf := by rw [hsame]; exact accept_rbuf r s
    rw [hsame] at hcan
    refine .inl ⟨?_, ?_, (accept_cfg r s) ▸ hcan⟩
    · simp [concludeXfer, hsent]
    · simp [concludeXfer, hsent, hrbuf]

/-- The first byte is that of a short frame exactly if its raw byte is SHORT_RAW at its default (D5). -/
theorem rev8_eq_stShort_iff (w : Wire) : rev8 w = Config.stShort ↔ w = 0x41 := by
  rw [rev8_eq_iff]
  exact Iff.of_eq (congrArg (w = ·) (by decide))

/-- Settles O41: by the end of the receive step, and by Judge where it got all it was due. -/
theorem eachResultRecordsWhatTheTableSays : Obligations.EachResultRecordsWhatTheTableSays := by
  intro s t i r hr hgated hpos hraw hadm hexec
  obtain hfailed | ⟨u, hcfg, hresult, hrbuf⟩ := exec_command_cases hr hgated hadm hexec
  · exact .inr (.inr (.inr (.inl hfailed)))
  rw [xferReceive_eq (by omega)] at hresult hrbuf
  obtain ⟨hempty, hnone⟩ | ⟨w, got, hgot, hle, hend⟩ := rxBody_cases r.rsize u
  · rw [hempty] at hresult
    exact .inr (.inl ⟨hresult, hrbuf.trans hnone⟩)
  have hdue : restLen u.cfg r.rsize w + 1 = if rev8 w = Config.stShort then 2 else r.rsize := by
    rw [restLen_add_one hpos, hcfg, hraw]
    simp only [rev8_eq_stShort_iff]
  have hrlen : t.rlen = got.length + 1 := by rw [State.rlen, hrbuf, hgot]; simp
  have hhead : t.rbuf.head? = some (rev8 w) := by rw [hrbuf, hgot]; rfl
  rw [hend] at hresult
  by_cases hshort : got.length < restLen u.cfg r.rsize w
  · refine .inr (.inr (.inl ⟨by rw [hresult]; simp [hshort], by omega, ?_⟩))
    have hgoal : (if t.rbuf.head? = some 0x82 then 2 else r.rsize) = restLen u.cfg r.rsize w + 1 := by
      simp only [hdue, hhead, Option.some.injEq]
      rfl
    omega
  have hwhole : t.rlen = if rev8 w = Config.stShort then 2 else r.rsize := by omega
  rw [if_neg hshort, if_pos rfl, judge_rxBody hgot, ← hgot, ← hrbuf, hcfg] at hresult
  by_cases hstShort : rev8 w = Config.stShort
  · rw [if_pos hstShort] at hresult hwhole
    obtain ⟨x, hx⟩ : ∃ x, got = [x] := List.length_eq_one_iff.mp (by omega)
    exact .inr (.inr (.inr (.inr (.inl ⟨hresult, rev8 x, by rw [hrbuf, hgot, hstShort, hx]; rfl⟩))))
  rw [if_neg hstShort] at hresult hwhole
  by_cases hstFull : rev8 w = Config.stFull
  · rw [if_neg (by simpa using hstFull)] at hresult
    have hfull : t.rbuf.head? = some 0x81 := by rw [hhead, hstFull]; rfl
    by_cases hsum : s.cfg.rxCsumCheck = true ∧ rxSumOk t.rbuf = false
    · rw [if_pos hsum] at hresult
      exact .inr (.inr (.inr (.inr (.inr (.inr ⟨hresult, hwhole, hfull, hsum⟩)))))
    · rw [if_neg hsum] at hresult
      exact .inl ⟨hresult, hwhole, hfull⟩
  · rw [if_pos hstFull] at hresult
    refine .inr (.inr (.inr (.inr (.inr (.inl ⟨hresult, hwhole, ?_, ?_⟩)))))
    · rw [hhead]
      exact fun h => hstFull (Option.some.inj h)
    · rw [hhead]
      exact fun h => hstShort (Option.some.inj h)

end Sys2Proof.Machine
